-- ==== Sys2Proof/Config.lean ====
section
/-! DEFINITION. The configuration of the engine (00_scope.md rule R9) and the one value the spec leaves free. -/

namespace Sys2Proof

/-- The elaboration-time parameter pair `(I, F)` of rule R9: exactly two values are admitted, and a third
configuration cannot be written (I10 of 93_implementation_defined.md: refuse). -/
inductive Config where
  /-- `(16, 16)`, `FACORE-I16F16`, the narrower width. -/
  | i16f16
  /-- `(32, 32)`, `FACORE-I32F32`, the wider width. -/
  | i32f32
deriving DecidableEq, Repr

/-- The configuration named by a pair `(I, F)`; every pair but the two of rule R9 is refused. -/
def Config.ofPair : Nat → Nat → Option Config
  | 16, 16 => some .i16f16
  | 32, 32 => some .i32f32
  | _, _ => none

/-- `I`, the number of integer bits (R9). -/
def Config.int : Config → Nat
  | .i16f16 => 16
  | .i32f32 => 32

/-- `F`, the number of fractional bits (R9). -/
def Config.frac : Config → Nat
  | .i16f16 => 16
  | .i32f32 => 32

/-- `W = I + F`, the word width (R10). -/
def Config.width (c : Config) : Nat := c.int + c.frac

/-- FREE VALUE (I7 of 93_implementation_defined.md, rule R276 (a)). When the host changed the command beat while the
engine made it wait, "which of the offered beats (or ... which mixture of their fields) is latched is unspecified":
the number below, taken modulo how many beats were offered, picks the beat that one field is latched from. It has
no body: nothing can be proved of its value. The argument is a counter, so that each use is a fresh value
(log entry 6). -/
opaque Config.freePick : Nat → Nat

end Sys2Proof
end

