-- ==== Sys2Proof/Word.lean ====
section
/-! DEFINITION. Words (00_scope.md rule R12). -/

namespace Sys2Proof

/-- A word of either configuration. The word of a `W`-bit engine is the low `W` bits; a 32-bit word is held in the
low half of the 64 bits, the high half being 0 (`Word.fits`; log entry 2). -/
abbrev Word := BitVec 64

/-- The word has no bit above bit `W-1`: it is a word of configuration `c`. -/
def Word.fits (c : Config) (w : Word) : Bool := w.toNat < 2 ^ c.width

end Sys2Proof
end

