-- ==== Sys2Proof/Syntax.lean ====
section
/-! DEFINITION. The command set: one constructor per row of spec/opcode_table.json (30_encoding.md rule R74). -/

namespace Sys2Proof

/-- A decoded command: the row of rule R74 with the operand words its format reads (rule R72). Formats: `U1` and `U2`
carry `A`, `B1` carries `A` and `B`, `T3` carries `A`, `B` and `C`. -/
inductive Instr where
  /-- ADD, R94. -/
  | add (a b : Word)
  /-- SUB, R95. -/
  | sub (a b : Word)
  /-- MUL, R96. -/
  | mul (a b : Word)
  /-- DIV, R97. -/
  | div (a b : Word)
  /-- SHL, R98; `b` is the unsigned count. -/
  | shl (a b : Word)
  /-- SHR, R99; `b` is the unsigned count. -/
  | shr (a b : Word)
  /-- CROT, R120. -/
  | crot (a b c : Word)
  /-- CVEC, R121. -/
  | cvec (a b c : Word)
  /-- HROT, R122. -/
  | hrot (a b c : Word)
  /-- HVEC, R123. -/
  | hvec (a b c : Word)
  /-- SIN, R143. -/
  | sin (a : Word)
  /-- COS, R144. -/
  | cos (a : Word)
  /-- TAN, R146. -/
  | tan (a : Word)
  /-- SINCOS, R145. -/
  | sincos (a : Word)
  /-- ATAN, R150. -/
  | atan (a : Word)
  /-- ATAN2, R149; `a` is y, `b` is x. -/
  | atan2 (a b : Word)
  /-- ASIN, R152. -/
  | asin (a : Word)
  /-- ACOS, R153. -/
  | acos (a : Word)
  /-- SINH, R175. -/
  | sinh (a : Word)
  /-- COSH, R176. -/
  | cosh (a : Word)
  /-- TANH, R178. -/
  | tanh (a : Word)
  /-- SINHCOSH, R177. -/
  | sinhcosh (a : Word)
  /-- ASINH, R181. -/
  | asinh (a : Word)
  /-- ACOSH, R182. -/
  | acosh (a : Word)
  /-- ATANH, R183. -/
  | atanh (a : Word)
  /-- ACOTH, R184. -/
  | acoth (a : Word)
  /-- COTH, R179. -/
  | coth (a : Word)
  /-- EXP, R200. -/
  | exp (a : Word)
  /-- POW2, R201. -/
  | pow2 (a : Word)
  /-- LN, R205. -/
  | ln (a : Word)
  /-- LOG2, R206. -/
  | log2 (a : Word)
  /-- LOG10, R207. -/
  | log10 (a : Word)
  /-- SQRT, R222. -/
  | sqrt (a : Word)
deriving DecidableEq, Repr

/-- The fields of a command beat `OPC ∥ A ∥ B ∥ C` (rules R70 and R23). -/
structure Command where
  opc : BitVec 8
  a : Word
  b : Word
  c : Word
deriving DecidableEq, Repr

/-- The formats of rule R72. -/
inductive Format where
  | u1
  | u2
  | b1
  | t3
deriving DecidableEq, Repr

end Sys2Proof
end

