-- ==== Sys2Proof/WellFormed.lean ====
section
/-! DEFINITION. When a command is one of a given configuration: each operand it carries is a word of `W` bits. There is
no other condition: "All `2^W` bit patterns of an operand are legal inputs to every command" (30_encoding.md rule R75). -/

namespace Sys2Proof

/-- The operand words a command carries, in the order `A`, `B`, `C`. -/
def Instr.operands : Instr → List Word
  | .add a b => [a, b]
  | .sub a b => [a, b]
  | .mul a b => [a, b]
  | .div a b => [a, b]
  | .shl a b => [a, b]
  | .shr a b => [a, b]
  | .crot a b c => [a, b, c]
  | .cvec a b c => [a, b, c]
  | .hrot a b c => [a, b, c]
  | .hvec a b c => [a, b, c]
  | .sin a => [a]
  | .cos a => [a]
  | .tan a => [a]
  | .sincos a => [a]
  | .atan a => [a]
  | .atan2 a b => [a, b]
  | .asin a => [a]
  | .acos a => [a]
  | .sinh a => [a]
  | .cosh a => [a]
  | .tanh a => [a]
  | .sinhcosh a => [a]
  | .asinh a => [a]
  | .acosh a => [a]
  | .atanh a => [a]
  | .acoth a => [a]
  | .coth a => [a]
  | .exp a => [a]
  | .pow2 a => [a]
  | .ln a => [a]
  | .log2 a => [a]
  | .log10 a => [a]
  | .sqrt a => [a]

/-- Every operand is a word of configuration `c`. -/
def Instr.wellFormed (c : Config) (i : Instr) : Bool := i.operands.all (Word.fits c)

/-- Every operand field of the beat is a word of configuration `c`. -/
def Command.wellFormed (c : Config) (cmd : Command) : Bool :=
  Word.fits c cmd.a && Word.fits c cmd.b && Word.fits c cmd.c

end Sys2Proof
end

