-- ==== Sys2Proof/Decode.lean ====
section
/-! DEFINITION. The command beat, its decoder and its encoder (30_encoding.md rules R70 to R79). -/

namespace Sys2Proof

/-- Why a beat is no command: its opcode is not in the table of rule R74 (rule R77). -/
inductive DecodeError where
  | illegalOpcode (opc : BitVec 8)
deriving DecidableEq, Repr

/-- What the decoder answers: a command of rule R74, or the name of what is wrong. -/
inductive Decoded where
  | command (i : Instr)
  | rejected (e : DecodeError)
deriving DecidableEq, Repr

/-- The `cmd` port. A beat of configuration `c` is the low `8 + 3W` bits (R70): 104 or 200 bits. -/
abbrev CmdBeat := BitVec 200

/-- The fields of the beat at the bit positions of rule R70: `C = [W-1:0]`, `B = [2W-1:W]`, `A = [3W-1:2W]`,
`OPC = [3W+7:3W]`. Port bits above `3W+7` do not exist on the narrower engine and are not read. -/
def Command.ofBeat (c : Config) (beat : CmdBeat) : Command where
  opc := beat.extractLsb' (3 * c.width) 8
  a := (beat.extractLsb' (2 * c.width) c.width).setWidth 64
  b := (beat.extractLsb' c.width c.width).setWidth 64
  c := (beat.extractLsb' 0 c.width).setWidth 64

/-- The beat of a command, `OPC ∥ A ∥ B ∥ C` (R70). -/
def Command.toBeat (c : Config) (cmd : Command) : CmdBeat :=
  BitVec.ofNat 200
    (((cmd.opc.toNat * 2 ^ c.width + cmd.a.toNat % 2 ^ c.width) * 2 ^ c.width + cmd.b.toNat % 2 ^ c.width)
      * 2 ^ c.width + cmd.c.toNat % 2 ^ c.width)

/-- Decoding, rule R78 over the table of rule R74: the opcode selects the command, the operand fields that its format
does not read are dropped (R76), and every other opcode is rejected by name (R77). -/
def decode (cmd : Command) : Decoded :=
  match cmd.opc.toNat with
  | 0x01 => .command (.add cmd.a cmd.b)
  | 0x02 => .command (.sub cmd.a cmd.b)
  | 0x03 => .command (.mul cmd.a cmd.b)
  | 0x04 => .command (.div cmd.a cmd.b)
  | 0x05 => .command (.shl cmd.a cmd.b)
  | 0x06 => .command (.shr cmd.a cmd.b)
  | 0x10 => .command (.crot cmd.a cmd.b cmd.c)
  | 0x11 => .command (.cvec cmd.a cmd.b cmd.c)
  | 0x12 => .command (.hrot cmd.a cmd.b cmd.c)
  | 0x13 => .command (.hvec cmd.a cmd.b cmd.c)
  | 0x20 => .command (.sin cmd.a)
  | 0x21 => .command (.cos cmd.a)
  | 0x22 => .command (.tan cmd.a)
  | 0x23 => .command (.sincos cmd.a)
  | 0x24 => .command (.atan cmd.a)
  | 0x25 => .command (.atan2 cmd.a cmd.b)
  | 0x26 => .command (.asin cmd.a)
  | 0x27 => .command (.acos cmd.a)
  | 0x30 => .command (.sinh cmd.a)
  | 0x31 => .command (.cosh cmd.a)
  | 0x32 => .command (.tanh cmd.a)
  | 0x33 => .command (.sinhcosh cmd.a)
  | 0x34 => .command (.asinh cmd.a)
  | 0x35 => .command (.acosh cmd.a)
  | 0x36 => .command (.atanh cmd.a)
  | 0x37 => .command (.acoth cmd.a)
  | 0x38 => .command (.coth cmd.a)
  | 0x40 => .command (.exp cmd.a)
  | 0x41 => .command (.pow2 cmd.a)
  | 0x42 => .command (.ln cmd.a)
  | 0x43 => .command (.log2 cmd.a)
  | 0x44 => .command (.log10 cmd.a)
  | 0x50 => .command (.sqrt cmd.a)
  | _ => .rejected (.illegalOpcode cmd.opc)

/-- Decoding a whole beat of configuration `c`. -/
def decodeBeat (c : Config) (beat : CmdBeat) : Decoded := decode (Command.ofBeat c beat)

/-- The opcode of a command (R74). -/
def Instr.opcode : Instr → BitVec 8
  | .add _ _ => 0x01#8
  | .sub _ _ => 0x02#8
  | .mul _ _ => 0x03#8
  | .div _ _ => 0x04#8
  | .shl _ _ => 0x05#8
  | .shr _ _ => 0x06#8
  | .crot _ _ _ => 0x10#8
  | .cvec _ _ _ => 0x11#8
  | .hrot _ _ _ => 0x12#8
  | .hvec _ _ _ => 0x13#8
  | .sin _ => 0x20#8
  | .cos _ => 0x21#8
  | .tan _ => 0x22#8
  | .sincos _ => 0x23#8
  | .atan _ => 0x24#8
  | .atan2 _ _ => 0x25#8
  | .asin _ => 0x26#8
  | .acos _ => 0x27#8
  | .sinh _ => 0x30#8
  | .cosh _ => 0x31#8
  | .tanh _ => 0x32#8
  | .sinhcosh _ => 0x33#8
  | .asinh _ => 0x34#8
  | .acosh _ => 0x35#8
  | .atanh _ => 0x36#8
  | .acoth _ => 0x37#8
  | .coth _ => 0x38#8
  | .exp _ => 0x40#8
  | .pow2 _ => 0x41#8
  | .ln _ => 0x42#8
  | .log2 _ => 0x43#8
  | .log10 _ => 0x44#8
  | .sqrt _ => 0x50#8

/-- The format of a command (R72, R74). -/
def Instr.format : Instr → Format
  | .add _ _ => .b1
  | .sub _ _ => .b1
  | .mul _ _ => .b1
  | .div _ _ => .b1
  | .shl _ _ => .b1
  | .shr _ _ => .b1
  | .crot _ _ _ => .t3
  | .cvec _ _ _ => .t3
  | .hrot _ _ _ => .t3
  | .hvec _ _ _ => .t3
  | .sin _ => .u1
  | .cos _ => .u1
  | .tan _ => .u1
  | .sincos _ => .u2
  | .atan _ => .u1
  | .atan2 _ _ => .b1
  | .asin _ => .u1
  | .acos _ => .u1
  | .sinh _ => .u1
  | .cosh _ => .u1
  | .tanh _ => .u1
  | .sinhcosh _ => .u2
  | .asinh _ => .u1
  | .acosh _ => .u1
  | .atanh _ => .u1
  | .acoth _ => .u1
  | .coth _ => .u1
  | .exp _ => .u1
  | .pow2 _ => .u1
  | .ln _ => .u1
  | .log2 _ => .u1
  | .log10 _ => .u1
  | .sqrt _ => .u1

/-- The command beat's fields for a command; the operand fields its format does not read are zero, as the assembler
emits them (R76). -/
def encode : Instr → Command
  | .add a b => ⟨0x01#8, a, b, 0⟩
  | .sub a b => ⟨0x02#8, a, b, 0⟩
  | .mul a b => ⟨0x03#8, a, b, 0⟩
  | .div a b => ⟨0x04#8, a, b, 0⟩
  | .shl a b => ⟨0x05#8, a, b, 0⟩
  | .shr a b => ⟨0x06#8, a, b, 0⟩
  | .crot a b c => ⟨0x10#8, a, b, c⟩
  | .cvec a b c => ⟨0x11#8, a, b, c⟩
  | .hrot a b c => ⟨0x12#8, a, b, c⟩
  | .hvec a b c => ⟨0x13#8, a, b, c⟩
  | .sin a => ⟨0x20#8, a, 0, 0⟩
  | .cos a => ⟨0x21#8, a, 0, 0⟩
  | .tan a => ⟨0x22#8, a, 0, 0⟩
  | .sincos a => ⟨0x23#8, a, 0, 0⟩
  | .atan a => ⟨0x24#8, a, 0, 0⟩
  | .atan2 a b => ⟨0x25#8, a, b, 0⟩
  | .asin a => ⟨0x26#8, a, 0, 0⟩
  | .acos a => ⟨0x27#8, a, 0, 0⟩
  | .sinh a => ⟨0x30#8, a, 0, 0⟩
  | .cosh a => ⟨0x31#8, a, 0, 0⟩
  | .tanh a => ⟨0x32#8, a, 0, 0⟩
  | .sinhcosh a => ⟨0x33#8, a, 0, 0⟩
  | .asinh a => ⟨0x34#8, a, 0, 0⟩
  | .acosh a => ⟨0x35#8, a, 0, 0⟩
  | .atanh a => ⟨0x36#8, a, 0, 0⟩
  | .acoth a => ⟨0x37#8, a, 0, 0⟩
  | .coth a => ⟨0x38#8, a, 0, 0⟩
  | .exp a => ⟨0x40#8, a, 0, 0⟩
  | .pow2 a => ⟨0x41#8, a, 0, 0⟩
  | .ln a => ⟨0x42#8, a, 0, 0⟩
  | .log2 a => ⟨0x43#8, a, 0, 0⟩
  | .log10 a => ⟨0x44#8, a, 0, 0⟩
  | .sqrt a => ⟨0x50#8, a, 0, 0⟩

/-- The command beat of a command on an engine of configuration `c`. -/
def encodeBeat (c : Config) (i : Instr) : CmdBeat := (encode i).toBeat c

/-- The command whose bits are `w`, numbered as spec/opcode_table.json numbers them: the opcode byte is the first word
(bits 7 to 0), then `A`, `B`, `C` of `W` bits each count on; bits from `nbits` up are 0 (log entry 9). -/
def tableCommand (c : Config) (nbits w : Nat) : Command :=
  let v := w % 2 ^ nbits
  let field (k : Nat) : Word := BitVec.ofNat 64 (v / 2 ^ (8 + k * c.width) % 2 ^ c.width)
  { opc := BitVec.ofNat 8 v, a := field 0, b := field 1, c := field 2 }

/-- The instruction the decoder reads from the word `w` of the opcode table, laid out as a beat of the configuration of
`State.reset`, (16,16) (log entries 1 and 9). -/
def decodeTableWord (nbits w : Nat) : Option Instr :=
  match decodeBeat .i16f16 ((tableCommand .i16f16 nbits w).toBeat .i16f16) with
  | .command i => some i
  | .rejected _ => none

end Sys2Proof
end

