-- ==== Sys2Proof/Machine/State.lean ====
section
/-! DEFINITION. The state of the engine (10_state.md rule R23), the reset state (rules R34, R270), and the reasons a step can stop. -/

namespace Sys2Proof.Machine

/-- Where the engine is in the life of a command (R23). -/
inductive Phase where
  | idle
  | busy
  | resp
deriving DecidableEq, Repr

/-- The error codes 0 to 10 of 60_exceptions.md rule R243; 11 to 15 are never produced (I2). Their numbers are `Err.code`. -/
inductive Err where
  /-- 0, success. -/
  | none
  /-- 1, ASIN, ACOS: `|x| > 1`. -/
  | asinAcosDomain
  /-- 2, ACOSH: `x < 1`. -/
  | acoshDomain
  /-- 3, ATANH: `|x| >= 1`. -/
  | atanhDomain
  /-- 4, ACOTH: `|x| <= 1`. -/
  | acothDomain
  /-- 5, LN, LOG2, LOG10: `x <= 0`. -/
  | logDomain
  /-- 6, SQRT: `x < 0`. -/
  | sqrtDomain
  /-- 7, COTH: `x = 0`. -/
  | cothZero
  /-- 8, DIV: zero divisor. -/
  | divByZero
  /-- 9, CROT, CVEC, HROT, HVEC: operand outside the bound of rule R112. -/
  | engineRange
  /-- 10, an opcode outside the table of rule R74. -/
  | illegalOp
deriving DecidableEq, Repr

/-- The response: `ERR` and the three result words (R23, R71). -/
structure Response where
  err : Err
  r0 : Word
  r1 : Word
  r2 : Word
deriving DecidableEq, Repr

/-- What the host drives on the four input ports during one step (R21). -/
structure Pins where
  rst : Bool
  cmdValid : Bool
  cmd : CmdBeat
  rspReady : Bool
deriving DecidableEq, Repr

/-- A host that asks for nothing: no reset, no command, no room for a response. -/
def Pins.idle : Pins := { rst := false, cmdValid := false, cmd := 0, rspReady := false }

/-- The state of one engine: the architectural tuple `(phase, cmd_q, rsp_q)` of rule R23, and the model's own fields (the
configuration, the host's side of the ports, the counter of the free values). -/
structure State where
  /-- The configuration the engine was built with (R9); no step changes it (log entry 1). -/
  cfg : Config
  /-- `phase` (R23). -/
  phase : Phase
  /-- `cmd_q` (R23). -/
  cmdQ : Command
  /-- `rsp_q` (R23). -/
  rspQ : Response
  /-- What the host will drive on the input ports, the coming step first; after the last entry the ports are idle (log entry 5). -/
  inputs : List Pins
  /-- The beats offered since the last acceptance and not accepted, each once (R22, R276 (a); log entry 6). -/
  offers : List Command
  /-- The responses the host has received, oldest first (R24; log entry 5). -/
  received : List Response
  /-- How many free values have been used (log entry 6). -/
  free : Nat
deriving DecidableEq, Repr

/-- Reasons a step can stop with a fault: there is none. "There is no `UNPREDICTABLE`-class behaviour in the engine"
(93_implementation_defined.md section 1): every error is a response with an `ERR` code (R240, R251), a next state. -/
inductive Fault where
deriving DecidableEq, Repr

/-- Reasons a step can be refused. -/
inductive Refusal where
  /-- Raised by an arm of `exec` whose instruction has no meaning yet; safe (the model stops where the hardware goes on). No
  arm of this model raises it. -/
  | notModelled (mnemonic : String)
deriving DecidableEq, Repr

/-- What one step answers. -/
abbrev Result := Host.Outcome State Fault Refusal

/-- The value of `cmd_q` after reset: the spec leaves it unspecified (R34, R270, I4); the model names zero (log entry 3). -/
def Command.zero : Command := { opc := 0, a := 0, b := 0, c := 0 }

/-- The value of `rsp_q` after reset: the spec leaves it unspecified (R34, R270, I4); the model names zero (log entry 3). -/
def Response.zero : Response := { err := .none, r0 := 0, r1 := 0, r2 := 0 }

/-- The engine of configuration `c` right after reset (R34, R270): `phase = IDLE`. -/
def State.resetOf (c : Config) : State where
  cfg := c
  phase := .idle
  cmdQ := Command.zero
  rspQ := Response.zero
  inputs := []
  offers := []
  received := []
  free := 0

/-- The engine right after reset, in the configuration (16,16) (log entry 1). -/
def State.reset : State := State.resetOf .i16f16

end Sys2Proof.Machine
end

