-- ==== Sys2Proof/Machine/Arith.lean ====
section
/-! DEFINITION. The integer arithmetic of the pseudocode (00_scope.md rules R10, R12, R13; 40_primitives.md rules R90 to
R93): unbounded integers, floor shifts, floor division, saturation. -/

namespace Sys2Proof.Machine

/-- `MAX = 2^(W-1) - 1` (R10). -/
def maxRaw (c : Config) : Int := 2 ^ (c.width - 1) - 1

/-- `MIN = -2^(W-1)` (R10). -/
def minRaw (c : Config) : Int := -2 ^ (c.width - 1)

/-- `ONE = 2^F` (R10). -/
def one (c : Config) : Int := 2 ^ c.frac

/-- `HALF = 2^(F-1)` (R10). -/
def half (c : Config) : Int := 2 ^ (c.frac - 1)

/-- `a << n = a * 2^n`, exact (R13). -/
def shl (a : Int) (n : Nat) : Int := a * 2 ^ n

/-- `a >> n = floor(a / 2^n)` (R13, R90). -/
def asr (a : Int) (n : Nat) : Int := a / 2 ^ n

/-- `a // b`, the quotient rounded toward minus infinity at every sign combination (R13). -/
def floorDiv (a b : Int) : Int := Int.fdiv a b

/-- `abs(a)` (R13). -/
def absInt (a : Int) : Int := if a < 0 then -a else a

/-- `bitlen(u)` (R13): 0 for 0, else the `n` with `2^(n-1) <= u < 2^n`. -/
def bitlen (u : Nat) : Nat := if u = 0 then 0 else Nat.log2 u + 1

/-- `sat(v)` (R91): the silent clamp to `[MIN, MAX]`. -/
def sat (c : Config) (v : Int) : Int :=
  if v > maxRaw c then maxRaw c else if v < minRaw c then minRaw c else v

/-- `fmul(a, b) = (a * b) >> F` (R92). -/
def fmul (c : Config) (a b : Int) : Int := asr (a * b) c.frac

/-- `fdiv(a, b) = (a << F) // b` (R93); every caller excludes `b = 0`. -/
def fdiv (c : Config) (a b : Int) : Int := floorDiv (shl a c.frac) b

end Sys2Proof.Machine
end

