-- ==== Sys2Proof/Machine/Operands.lean ====
section
/-! DEFINITION. Reading an operand word and writing a result word (00_scope.md rules R12, R15; 30_encoding.md rule R75).
There are no immediates, register numbers or addressing modes: these two readings and one writing are all. -/

namespace Sys2Proof.Machine

/-- `S(w)`, the raw value of a word: its `W` bits as a two's-complement integer (R12). -/
def signed (c : Config) (w : Word) : Int := (w.setWidth c.width).toInt

/-- `U(w)`, the `W` bits of a word as an unsigned integer (R12); the count of SHL and SHR (R75). -/
def unsigned (c : Config) (w : Word) : Nat := (w.setWidth c.width).toNat

/-- `word(v)`, the word whose raw value is `v`, for `v` in `[MIN, MAX]` (R12, R15). -/
def word (c : Config) (v : Int) : Word := (BitVec.ofInt c.width v).setWidth 64

end Sys2Proof.Machine
end

