-- ==== Sys2Proof/Machine/Ops.lean ====
section
/-! DEFINITION. Forming a response and putting it in `rsp_q`: the writes `R0 <- v`, `R1 <- v`, `R2 <- v` (00_scope.md rule
R15), the one form of exception of this hardware (60_exceptions.md rule R242), and the state updates of the three steps
and of reset (10_state.md rule R24, 70_reset_and_hazards.md rule R270). -/

namespace Sys2Proof.Machine

/-- `R0 <- v`; the result fields not written are zero and `ERR = 0` (R15, R76). -/
def Response.one (c : Config) (v : Int) : Response := { err := .none, r0 := word c v, r1 := 0, r2 := 0 }

/-- `R0 <- v ; R1 <- w` (formats U2). -/
def Response.two (c : Config) (v w : Int) : Response := { err := .none, r0 := word c v, r1 := word c w, r2 := 0 }

/-- `R0 <- x ; R1 <- y ; R2 <- z` (format T3). -/
def Response.three (c : Config) (v : Int × Int × Int) : Response :=
  { err := .none, r0 := word c v.1, r1 := word c v.2.1, r2 := word c v.2.2 }

/-- `raise DomainError(e)` (R242): the response is `ERR = e`, `R0 = R1 = R2 = 0`, and nothing else is recorded (R244). This
is the whole of taking an exception on this hardware: no state is saved and control goes nowhere (R251). -/
def Response.raise (e : Err) : Response := { err := e, r0 := 0, r1 := 0, r2 := 0 }

/-- The state after the `compute` step: `rsp_q <- r ; phase <- RESP` (R24), the same for a value and for an error (R248). -/
def State.answered (s : State) (r : Response) : State := { s with rspQ := r, phase := .resp }

/-- The end of the `compute` step (R24): always a next state. -/
def State.answer (s : State) (r : Response) : Result := .next (s.answered r)

/-- The `accept` step: `cmd_q <- cmd ; phase <- BUSY` (R24). Nothing is waiting any more. -/
def State.accept (s : State) (cmd : Command) : State := { s with cmdQ := cmd, phase := .busy, offers := [] }

/-- The `deliver` step: "the host receives rsp_q ; phase <- IDLE" (R24). It is the only way back from an error response
too: no acknowledgement, clear or return exists (R248, R251). -/
def State.deliver (s : State) : State := { s with received := s.received ++ [s.rspQ], phase := .idle }

/-- A step in which `rst = 1` is sampled (R270, R271): `phase <- IDLE`, a command in flight is abandoned, an offered response
withdrawn. `cmd_q` and `rsp_q` are unspecified afterwards; the model gives them the values of `State.reset` (log entry 3). -/
def State.resetEngine (s : State) : State := { s with phase := .idle, cmdQ := Command.zero, rspQ := Response.zero }

end Sys2Proof.Machine
end

