-- ==== Sys2Proof/Machine/Flags.lean ====
section
/-! DEFINITION. The status of a command. The engine has no flags or condition codes (10_state.md rule R28); "the one status
value is the `ERR` field of the response". This file holds its numbers, its domain conditions and the classification of the
commands (60_exceptions.md rules R243, R245). -/

namespace Sys2Proof.Machine

/-- The number of an error code (R243). -/
def Err.code : Err → BitVec 4
  | .none => 0
  | .asinAcosDomain => 1
  | .acoshDomain => 2
  | .atanhDomain => 3
  | .acothDomain => 4
  | .logDomain => 5
  | .sqrtDomain => 6
  | .cothZero => 7
  | .divByZero => 8
  | .engineRange => 9
  | .illegalOp => 10

/-- The operand bound of the raw engine commands is violated (R112): `|A| > 2^(W-4)` or `|B| > 2^(W-4)` or `|C| > 2^(W-2)`. -/
def outsideEngine (c : Config) (x y z : Int) : Bool :=
  absInt x > 2 ^ (c.width - 4) || absInt y > 2 ^ (c.width - 4) || absInt z > 2 ^ (c.width - 2)

/-- FA's DomainClassification (R18, R245). -/
inductive DomainClass where
  | total
  | fallible
deriving DecidableEq, Repr

/-- The error code a command can raise besides 0; none for a Total command (R74, R245). -/
def errorOf : Instr → Option Err
  | .add _ _ => none
  | .sub _ _ => none
  | .mul _ _ => none
  | .div _ _ => some .divByZero
  | .shl _ _ => none
  | .shr _ _ => none
  | .crot _ _ _ => some .engineRange
  | .cvec _ _ _ => some .engineRange
  | .hrot _ _ _ => some .engineRange
  | .hvec _ _ _ => some .engineRange
  | .sin _ => none
  | .cos _ => none
  | .tan _ => none
  | .sincos _ => none
  | .atan _ => none
  | .atan2 _ _ => none
  | .asin _ => some .asinAcosDomain
  | .acos _ => some .asinAcosDomain
  | .sinh _ => none
  | .cosh _ => none
  | .tanh _ => none
  | .sinhcosh _ => none
  | .asinh _ => none
  | .acosh _ => some .acoshDomain
  | .atanh _ => some .atanhDomain
  | .acoth _ => some .acothDomain
  | .coth _ => some .cothZero
  | .exp _ => none
  | .pow2 _ => none
  | .ln _ => some .logDomain
  | .log2 _ => some .logDomain
  | .log10 _ => some .logDomain
  | .sqrt _ => some .sqrtDomain

/-- The class of a command (R245): fallible exactly when it has an error code to raise. -/
def domainClass (i : Instr) : DomainClass :=
  match errorOf i with
  | none => .total
  | some _ => .fallible

end Sys2Proof.Machine
end

