-- ==== Sys2Proof/Machine/Rom.lean ====
section
/-! DEFINITION. The constant ROM: the tables `CTAB` and `HTAB` and the scalar constants of `KROM`, with the literals that
20_memory.md rules R54 to R60 list for each configuration. It is a function of the configuration and never changes (R51, R272). -/

namespace Sys2Proof.Machine

/-- `NC = F + 1`, the circular table length and iteration count (R10, R53). -/
def nC (c : Config) : Nat := c.frac + 1

/-- `NH = F + 2`, the hyperbolic table length and iteration count (R10, R53). -/
def nH (c : Config) : Nat := c.frac + 2

/-- `E = W`, the fractional bits of the extended reduction constants (R10). -/
def extBits (c : Config) : Nat := c.width

/-- `PNORM = W - 6` (R10). -/
def pNorm (c : Config) : Nat := c.width - 6

/-- `KSQRT`, the Newton-Raphson iteration count (R10). -/
def kSqrt : Config → Nat
  | .i16f16 => 6
  | .i32f32 => 7

/-- `CTAB[i] = rn(atan(2^-i) * 2^F)`, in index order (R54). -/
def ctab : Config → List Int
  | .i16f16 => [
      51472, 30386, 16055, 8150, 4091, 2047, 1024, 512, 256,
      128, 64, 32, 16, 8, 4, 2, 1]
  | .i32f32 => [
      3373259426, 1991351318, 1052175346, 534100635, 268086748, 134174063,
      67103403, 33553749, 16777131, 8388597, 4194303, 2097152,
      1048576, 524288, 262144, 131072, 65536, 32768,
      16384, 8192, 4096, 2048, 1024, 512,
      256, 128, 64, 32, 16, 8,
      4, 2, 1]

/-- One entry of the hyperbolic table (R55). -/
structure HEntry where
  shift : Nat
  value : Int
deriving DecidableEq, Repr

/-- `HTAB[j]`, in the order of execution, repeated shifts included (R53, R55). -/
def htab : Config → List HEntry
  | .i16f16 => [
      ⟨1, 35999⟩, ⟨2, 16739⟩, ⟨3, 8235⟩, ⟨4, 4101⟩, ⟨4, 4101⟩,
      ⟨5, 2049⟩, ⟨6, 1024⟩, ⟨7, 512⟩, ⟨8, 256⟩, ⟨9, 128⟩,
      ⟨10, 64⟩, ⟨11, 32⟩, ⟨12, 16⟩, ⟨13, 8⟩, ⟨13, 8⟩,
      ⟨14, 4⟩, ⟨15, 2⟩, ⟨16, 1⟩]
  | .i32f32 => [
      ⟨1, 2359251925⟩, ⟨2, 1096989674⟩, ⟨3, 539693625⟩, ⟨4, 268785803⟩,
      ⟨4, 268785803⟩, ⟨5, 134261444⟩, ⟨6, 67114326⟩, ⟨7, 33555115⟩,
      ⟨8, 16777301⟩, ⟨9, 8388619⟩, ⟨10, 4194305⟩, ⟨11, 2097152⟩,
      ⟨12, 1048576⟩, ⟨13, 524288⟩, ⟨13, 524288⟩, ⟨14, 262144⟩,
      ⟨15, 131072⟩, ⟨16, 65536⟩, ⟨17, 32768⟩, ⟨18, 16384⟩,
      ⟨19, 8192⟩, ⟨20, 4096⟩, ⟨21, 2048⟩, ⟨22, 1024⟩,
      ⟨23, 512⟩, ⟨24, 256⟩, ⟨25, 128⟩, ⟨26, 64⟩,
      ⟨27, 32⟩, ⟨28, 16⟩, ⟨29, 8⟩, ⟨30, 4⟩,
      ⟨31, 2⟩, ⟨32, 1⟩]

/-- `KC` (R56): `rn(2^F * prod_{i=0}^{F} 1/sqrt(1 + 2^(-2i)))`. -/
def kC : Config → Int
  | .i16f16 => 39797
  | .i32f32 => 2608131496

/-- `KH` (R56): `rn(2^F * prod_{j=0}^{NH-1} 1/sqrt(1 - 2^(-2*HTAB[j].shift)))`. -/
def kH : Config → Int
  | .i16f16 => 79135
  | .i32f32 => 5186160416

/-- `PI` (R57): `rn(pi * 2^F)`. -/
def pi : Config → Int
  | .i16f16 => 205887
  | .i32f32 => 13493037705

/-- `HALFPI` (R57): `rn(pi/2 * 2^F)`. -/
def halfPi : Config → Int
  | .i16f16 => 102944
  | .i32f32 => 6746518852

/-- `LN2` (R57): `rn(ln 2 * 2^F)`. -/
def ln2 : Config → Int
  | .i16f16 => 45426
  | .i32f32 => 2977044472

/-- `INV_LN2` (R57): `rn(2^F / ln 2)`. -/
def invLn2 : Config → Int
  | .i16f16 => 94548
  | .i32f32 => 6196328019

/-- `INV_LN10` (R57): `rn(2^F / ln 10)`. -/
def invLn10 : Config → Int
  | .i16f16 => 28462
  | .i32f32 => 1865280597

/-- `HALFPI_E` (R57): `rn(pi/2 * 2^E)`. -/
def halfPiE : Config → Int
  | .i16f16 => 6746518852
  | .i32f32 => 28976077832308491370

/-- `LN2_E` (R57): `rn(ln 2 * 2^E)`. -/
def ln2E : Config → Int
  | .i16f16 => 2977044472
  | .i32f32 => 12786308645202655660

/-- `C1_3` (R58): `rn(2^F / 3)`. -/
def c1_3 : Config → Int
  | .i16f16 => 21845
  | .i32f32 => 1431655765

/-- `C1_45` (R58): `rn(2^F / 45)`. -/
def c1_45 : Config → Int
  | .i16f16 => 1456
  | .i32f32 => 95443718

/-- `C2_945` (R58): `rn(2^F * 2/945)`. -/
def c2_945 : Config → Int
  | .i16f16 => 139
  | .i32f32 => 9089878

/-- `C1_4725` (R58): `rn(2^F / 4725)`. -/
def c1_4725 : Config → Int
  | .i16f16 => 14
  | .i32f32 => 908988

/-- `C1_6` (R58): `rn(2^F / 6)`. -/
def c1_6 : Config → Int
  | .i16f16 => 10923
  | .i32f32 => 715827883

/-- `C1_120` (R58): `rn(2^F / 120)`. -/
def c1_120 : Config → Int
  | .i16f16 => 546
  | .i32f32 => 35791394

/-- `C1_5040` (R58): `rn(2^F / 5040)`. -/
def c1_5040 : Config → Int
  | .i16f16 => 13
  | .i32f32 => 852176

/-- `C3_40` (R58): `rn(2^F * 3/40)`. -/
def c3_40 : Config → Int
  | .i16f16 => 4915
  | .i32f32 => 322122547

/-- `C5_112` (R58): `rn(2^F * 5/112)`. -/
def c5_112 : Config → Int
  | .i16f16 => 2926
  | .i32f32 => 191739611

/-- `T_EXP_HI` (R59): `ceil(ln(2^(I-1)) * 2^F)`. -/
def tExpHi : Config → Int
  | .i16f16 => 681392
  | .i32f32 => 92288378627

/-- `T_EXP_LO` (R59): `ceil(ln(2^-F) * 2^F)`. -/
def tExpLo : Config → Int
  | .i16f16 => -726817
  | .i32f32 => -95265423098

/-- `T_POW2_HI` (R59): `(I-1) * 2^F`. -/
def tPow2Hi : Config → Int
  | .i16f16 => 983040
  | .i32f32 => 133143986176

/-- `T_POW2_LO` (R59): `-F * 2^F`. -/
def tPow2Lo : Config → Int
  | .i16f16 => -1048576
  | .i32f32 => -137438953472

/-- `T_SINH` (R59): `ceil(asinh(2^(I-1)) * 2^F)`. -/
def tSinh : Config → Int
  | .i16f16 => 726818
  | .i32f32 => 95265423099

/-- `T_COSH` (R59): `ceil(acosh(2^(I-1)) * 2^F)`. -/
def tCosh : Config → Int
  | .i16f16 => 726818
  | .i32f32 => 95265423099

/-- `TAYLOR_T` (R59): `2^(F-3)`. -/
def taylorT : Config → Int
  | .i16f16 => 8192
  | .i32f32 => 536870912

/-- The members of the sequence `4, 13, 40, 121, ...` (`k_1 = 4`, `k_(n+1) = 3 k_n + 1`) from `k` on that are at most the
bound; the first argument bounds how many are looked at (R53). -/
def repeatsFrom : Nat → Nat → Nat → List Nat
  | 0, _, _ => []
  | n + 1, k, bound => if k ≤ bound then k :: repeatsFrom n (3 * k + 1) bound else []

/-- The schedule of rule R53: the shifts `1 .. F`, each member of the repeat set twice in succession. The table `htab` lists
its values; that its shifts are this list is a lemma, not a definition. -/
def schedule (c : Config) : List Nat :=
  (List.range c.frac).flatMap fun k =>
    if k + 1 ∈ repeatsFrom c.frac 4 c.frac then [k + 1, k + 1] else [k + 1]

end Sys2Proof.Machine
end

