-- ==== Sys2Proof/Machine/Refine.lean ====
section
/-! DEFINITION. The refinement stage: the Newton-Raphson integer square root and the Taylor and Laurent polynomials
(45_algebraic_refinement.md rules R220, R225 to R228). -/

namespace Sys2Proof.Machine

/-- One Newton step, `g <- min(g, (g + p // g) >> 1)` (R220). -/
def newtonStep (p g : Nat) : Nat := min g ((g + p / g) / 2)

/-- `n` Newton steps (R220): the count is fixed, not data dependent. -/
def newton (p : Nat) : Nat → Nat → Nat
  | 0, g => g
  | n + 1, g => newton p n (newtonStep p g)

/-- `isqrt_nr(p)` (R220), for `p >= 0`. -/
def isqrtNr (c : Config) (p : Nat) : Nat :=
  if p = 0 then 0 else newton p (kSqrt c) (2 ^ ((bitlen p + 1) / 2))

/-- `taylor_sinh(a)` (R225). -/
def taylorSinh (c : Config) (a : Int) : Int :=
  let a2 := fmul c a a
  let poly := one c + fmul c a2 (c1_6 c + fmul c a2 (c1_120 c + fmul c a2 (c1_5040 c)))
  fmul c a poly

/-- `taylor_asinh(a)` (R226). -/
def taylorAsinh (c : Config) (a : Int) : Int :=
  let a2 := fmul c a a
  let poly := one c - fmul c a2 (c1_6 c - fmul c a2 (c3_40 c - fmul c a2 (c5_112 c)))
  fmul c a poly

/-- `cot_series(d)` (R227). -/
def cotSeries (c : Config) (d : Int) : Int :=
  let d2 := fmul c d d
  fmul c d (c1_3 c + fmul c d2 (c1_45 c + fmul c d2 (c2_945 c + fmul c d2 (c1_4725 c))))

/-- `coth_series(d)` (R228). -/
def cothSeries (c : Config) (d : Int) : Int :=
  let d2 := fmul c d d
  fmul c d (c1_3 c - fmul c d2 (c1_45 c - fmul c d2 (c2_945 c - fmul c d2 (c1_4725 c))))

end Sys2Proof.Machine
end

