-- ==== Sys2Proof/Machine/Algebraic.lean ====
section
/-! DEFINITION. The algebraic command SQRT (45_algebraic_refinement.md rule R222). -/

namespace Sys2Proof.Machine

/-- SQRT (R222): error 6 when `v < 0`, else `isqrt_nr(A << F)`. -/
def execSqrt (a : Word) (s : State) : Result :=
  let c := s.cfg
  let v := signed c a
  s.answer (
    if v < 0 then Response.raise .sqrtDomain
    else Response.one c (isqrtNr c (shl v c.frac).toNat))

end Sys2Proof.Machine
end

