-- ==== Sys2Proof/Machine/Cordic.lean ====
section
/-! DEFINITION. The CORDIC engine: the iterations of 41_cordic_engine.md rules R110 to R117. A run is a fold of one iteration
over the whole table, so its count is the table's length and no entry is skipped (R111, R124). -/

namespace Sys2Proof.Machine

/-- The vector `(x, y)` and the angle register `z` (R110). -/
abbrev Xyz := Int × Int × Int

/-- The circular update with `σ = +1` (R114, R115): shifts are formed first, from the old `x` and `y` (R113). -/
def circPlus (s : Nat) (e : Int) (v : Xyz) : Xyz :=
  (v.1 - asr v.2.1 s, v.2.1 + asr v.1 s, v.2.2 - e)

/-- The circular update with `σ = -1` (R114, R115). -/
def circMinus (s : Nat) (e : Int) (v : Xyz) : Xyz :=
  (v.1 + asr v.2.1 s, v.2.1 - asr v.1 s, v.2.2 + e)

/-- The hyperbolic update with `σ = +1` (R116, R117). -/
def hypPlus (s : Nat) (e : Int) (v : Xyz) : Xyz :=
  (v.1 + asr v.2.1 s, v.2.1 + asr v.1 s, v.2.2 - e)

/-- The hyperbolic update with `σ = -1` (R116, R117). -/
def hypMinus (s : Nat) (e : Int) (v : Xyz) : Xyz :=
  (v.1 - asr v.2.1 s, v.2.1 - asr v.1 s, v.2.2 + e)

/-- One iteration of circular rotation: `σ = +1` if `z >= 0` (R111, R114). -/
def crotIter (v : Xyz) (h : HEntry) : Xyz :=
  if v.2.2 ≥ 0 then circPlus h.shift h.value v else circMinus h.shift h.value v

/-- One iteration of circular vectoring: `σ = +1` if `y < 0` (R111, R115). -/
def cvecIter (v : Xyz) (h : HEntry) : Xyz :=
  if v.2.1 < 0 then circPlus h.shift h.value v else circMinus h.shift h.value v

/-- One iteration of hyperbolic rotation (R111, R116). -/
def hrotIter (v : Xyz) (h : HEntry) : Xyz :=
  if v.2.2 ≥ 0 then hypPlus h.shift h.value v else hypMinus h.shift h.value v

/-- One iteration of hyperbolic vectoring (R111, R117). -/
def hvecIter (v : Xyz) (h : HEntry) : Xyz :=
  if v.2.1 < 0 then hypPlus h.shift h.value v else hypMinus h.shift h.value v

/-- The circular iterations in order: iteration `i` shifts by `i` and uses `CTAB[i]` (R114, R115). -/
def circSteps (c : Config) : List HEntry := (ctab c).mapIdx fun i e => { shift := i, value := e }

/-- `crot(x, y, z)`, circular rotation (R114). -/
def crot (c : Config) (x y z : Int) : Xyz := (circSteps c).foldl crotIter (x, y, z)

/-- `cvec(x, y, z)`, circular vectoring (R115). -/
def cvec (c : Config) (x y z : Int) : Xyz := (circSteps c).foldl cvecIter (x, y, z)

/-- `hrot(x, y, z)`, hyperbolic rotation (R116). -/
def hrot (c : Config) (x y z : Int) : Xyz := (htab c).foldl hrotIter (x, y, z)

/-- `hvec(x, y, z)`, hyperbolic vectoring (R117). -/
def hvec (c : Config) (x y z : Int) : Xyz := (htab c).foldl hvecIter (x, y, z)

end Sys2Proof.Machine
end

