-- ==== Sys2Proof/Machine/Kernels.lean ====
section
/-! DEFINITION. The range reducer and the kernels built on the engine: quadrant reduction and the circular kernel
(42_trigonometric.md rules R140 to R142, R147, R148, R151), reduction by ln 2 and the hyperbolic kernel (43_hyperbolic.md rules
R170 to R172), the logarithm kernel (44_exponential_log.md rules R202 to R204). -/

namespace Sys2Proof.Machine

/-- `reduce_quadrant(t)` (R140): the quadrant `q mod 4` and the reduced angle `rE` with `E` fractional bits. -/
def reduceQuadrant (c : Config) (t : Int) : Int × Int :=
  let tE := shl t (extBits c - c.frac)
  let q := floorDiv (tE + asr (halfPiE c) 1) (halfPiE c)
  (q % 4, tE - q * halfPiE c)

/-- `circ_parts(r)` (R141): cosine and sine of a reduced angle. -/
def circParts (c : Config) (r : Int) : Int × Int :=
  if r = 0 then (one c, 0)
  else
    let v := crot c (kC c) 0 r
    (min v.1 (one c), max (-one c) (min v.2.1 (one c)))

/-- `sincos(t)` (R142): `(sine, cosine)` of any angle. -/
def sincos (c : Config) (t : Int) : Int × Int :=
  let (q, rE) := reduceQuadrant c t
  let r := asr rE (extBits c - c.frac)
  let (cs, sn) := circParts c r
  if q = 0 then (sn, cs)
  else if q = 1 then (cs, -sn)
  else if q = 2 then (-sn, -cs)
  else (-cs, sn)

/-- The common scaling of `fq_angle` (R147): a left shift by `sh`, or a right shift by `-sh`. -/
def scaleBy (v : Nat) (sh : Int) : Nat :=
  if sh ≥ 0 then v * 2 ^ sh.toNat else v / 2 ^ (-sh).toNat

/-- `fq_angle(ay, ax)` (R147): the angle of the vector `(ax, ay)` of two positive magnitudes. -/
def fqAngle (c : Config) (ay ax : Nat) : Int :=
  let m := max ax ay
  let sh : Int := (pNorm c : Int) - ((bitlen m : Int) - 1)
  let v := cvec c (scaleBy ax sh) (scaleBy ay sh) 0
  max 0 (min (halfPi c) v.2.2)

/-- `atan2core(y, x)` (R148): the four-quadrant arctangent. -/
def atan2core (c : Config) (y x : Int) : Int :=
  if y = 0 then (if x ≥ 0 then 0 else pi c)
  else if x = 0 then (if y > 0 then halfPi c else -halfPi c)
  else
    let phi := fqAngle c y.natAbs x.natAbs
    if x > 0 then (if y > 0 then phi else -phi)
    else (if y > 0 then pi c - phi else phi - pi c)

/-- `asin_w(v)` (R151): `sqrt(1 - v^2)`, the exact floor. -/
def asinW (c : Config) (v : Int) : Int := isqrtNr c ((one c - v) * (one c + v)).toNat

/-- `reduce_ln2(a)` (R170): `(k, r)` with `a = k ln 2 + r`. -/
def reduceLn2 (c : Config) (a : Int) : Int × Int :=
  let aE := shl a (extBits c - c.frac)
  let k := floorDiv (aE + asr (ln2E c) 1) (ln2E c)
  (k, asr (aE - k * ln2E c) (extBits c - c.frac))

/-- `hyp_parts(r)` (R171): `(cosh, sinh)` of a reduced argument. -/
def hypParts (c : Config) (r : Int) : Int × Int :=
  if r = 0 then (one c, 0)
  else
    let v := hrot c (kH c) 0 r
    (v.1, v.2.1)

/-- `hyp_sc(a)` (R172): `(sinh, cosh)` of a magnitude `a` below the threshold, before saturation. -/
def hypSc (c : Config) (a : Int) : Int × Int :=
  let (k, r) := reduceLn2 c a
  let (ch, sh) := hypParts c r
  let p := shl (ch + sh) k.toNat
  let q := asr (ch - sh) k.toNat
  let s := if a < taylorT c then taylorSinh c a else asr (p - q) 1
  (s, asr (p + q) 1)

/-- `norm1(u)` (R202): the leading one moved to bit `PNORM`. -/
def norm1 (c : Config) (u : Nat) : Nat := scaleBy u ((pNorm c : Int) - ((bitlen u : Int) - 1))

/-- `ln_parts(u, v)` (R202): exponent difference and half-logarithm of the mantissa ratio, for `u, v > 0`. -/
def lnParts (c : Config) (u v : Nat) : Int × Int :=
  let k : Int := (bitlen u : Int) - (bitlen v : Int)
  let mu : Int := norm1 c u
  let mv : Int := norm1 c v
  let x0 := mu + mv
  let y0 := mu - mv
  (k, if y0 = 0 then 0 else (hvec c x0 y0 0).2.2)

/-- `ln_ratio(u, v) = ln(u / v)` (R203). -/
def lnRatio (c : Config) (u v : Nat) : Int :=
  let (k, z) := lnParts c u v
  asr (k * ln2E c) (extBits c - c.frac) + 2 * z

/-- `half_ln_ratio(u, v) = ½ ln(u / v)` (R204). -/
def halfLnRatio (c : Config) (u v : Nat) : Int :=
  let (k, z) := lnParts c u v
  asr (k * ln2E c) (extBits c - c.frac + 1) + z

/-- `2^k` reapplied by a shift (R200, R201): `sat(e << k)` for `k >= 0`, else `e >> (-k)`. -/
def scaleExp (c : Config) (e k : Int) : Int :=
  if k ≥ 0 then sat c (shl e k.toNat) else asr e (-k).toNat

end Sys2Proof.Machine
end

