-- ==== Sys2Proof/Machine/ExpLog.lean ====
section
/-! DEFINITION. The exponential and logarithmic commands (44_exponential_log.md rules R200, R201, R205 to R207). -/

namespace Sys2Proof.Machine

/-- The value of EXP (R200): `2^k (cosh r + sinh r)` between the thresholds. -/
def expValue (c : Config) (v : Int) : Int :=
  if v ≥ tExpHi c then maxRaw c
  else if v < tExpLo c then 0
  else
    let (k, r) := reduceLn2 c v
    let (ch, sh) := hypParts c r
    scaleExp c (ch + sh) k

/-- EXP (R200). -/
def execExp (a : Word) (s : State) : Result :=
  let c := s.cfg
  s.answer (Response.one c (expValue c (signed c a)))

/-- The value of POW2 (R201): `2^k 2^f` with `k` the nearest integer. -/
def pow2Value (c : Config) (v : Int) : Int :=
  if v ≥ tPow2Hi c then maxRaw c
  else if v < tPow2Lo c then 0
  else
    let k := asr (v + half c) c.frac
    let f := v - shl k c.frac
    let (ch, sh) := hypParts c (fmul c f (ln2 c))
    scaleExp c (ch + sh) k

/-- POW2 (R201). -/
def execPow2 (a : Word) (s : State) : Result :=
  let c := s.cfg
  s.answer (Response.one c (pow2Value c (signed c a)))

/-- `ln_ratio(A, ONE)` for `A > 0`, the kernel evaluation the three logarithms share (R205, R208). -/
def lnValue (c : Config) (v : Int) : Int := lnRatio c v.toNat (one c).toNat

/-- LN (R205): error 5 when `v <= 0`. -/
def execLn (a : Word) (s : State) : Result :=
  let c := s.cfg
  let v := signed c a
  s.answer (if v ≤ 0 then Response.raise .logDomain else Response.one c (lnValue c v))

/-- LOG2 (R206): `fmul(ln, INV_LN2)`. -/
def execLog2 (a : Word) (s : State) : Result :=
  let c := s.cfg
  let v := signed c a
  s.answer (
    if v ≤ 0 then Response.raise .logDomain else Response.one c (fmul c (lnValue c v) (invLn2 c)))

/-- LOG10 (R207): `fmul(ln, INV_LN10)`. -/
def execLog10 (a : Word) (s : State) : Result :=
  let c := s.cfg
  let v := signed c a
  s.answer (
    if v ≤ 0 then Response.raise .logDomain else Response.one c (fmul c (lnValue c v) (invLn10 c)))

end Sys2Proof.Machine
end

