-- ==== Sys2Proof/Machine/Hyperbolic.lean ====
section
/-! DEFINITION. The hyperbolic commands (43_hyperbolic.md rules R175 to R184). Odd functions are computed on the magnitude and
the sign restored (R173). -/

namespace Sys2Proof.Machine

/-- The sign of `v` put on a magnitude: `if A >= 0 then m else -m` (R173). -/
def withSign (v m : Int) : Int := if v ≥ 0 then m else -m

/-- The value of SINH (R175). -/
def sinhValue (c : Config) (v : Int) : Int :=
  if v ≥ tSinh c then maxRaw c
  else if v ≤ -tSinh c then minRaw c
  else sat c (withSign v (hypSc c (absInt v)).1)

/-- SINH (R175). -/
def execSinh (a : Word) (s : State) : Result :=
  let c := s.cfg
  s.answer (Response.one c (sinhValue c (signed c a)))

/-- The value of COSH (R176). -/
def coshValue (c : Config) (v : Int) : Int :=
  if absInt v ≥ tCosh c then maxRaw c
  else sat c (max (hypSc c (absInt v)).2 (one c))

/-- COSH (R176). -/
def execCosh (a : Word) (s : State) : Result :=
  let c := s.cfg
  s.answer (Response.one c (coshValue c (signed c a)))

/-- SINHCOSH (R177): the `R0` of SINH in `R0`, the `R0` of COSH in `R1`. -/
def execSinhcosh (a : Word) (s : State) : Result :=
  let c := s.cfg
  s.answer (Response.two c (sinhValue c (signed c a)) (coshValue c (signed c a)))

/-- The value of TANH (R178). -/
def tanhValue (c : Config) (v : Int) : Int :=
  if v ≥ tSinh c then one c
  else if v ≤ -tSinh c then -one c
  else
    let (sn, cs) := hypSc c (absInt v)
    withSign v (min (fdiv c sn cs) (one c))

/-- TANH (R178). -/
def execTanh (a : Word) (s : State) : Result :=
  let c := s.cfg
  s.answer (Response.one c (tanhValue c (signed c a)))

/-- `|coth|` of a magnitude below the threshold (R179): the Laurent form below `TAYLOR_T`, else cosine over sine. -/
def cothMagnitude (c : Config) (a : Int) : Int :=
  if a < taylorT c then floorDiv (2 ^ (2 * c.frac)) a + cothSeries c a
  else
    let (sn, cs) := hypSc c a
    fdiv c cs sn

/-- The value of COTH for an operand other than 0 (R179). -/
def cothValue (c : Config) (v : Int) : Int :=
  if v ≥ tSinh c then one c
  else if v ≤ -tSinh c then -one c
  else sat c (if v > 0 then cothMagnitude c (absInt v) else -cothMagnitude c (absInt v))

/-- COTH (R179): error 7 when `A = 0`. -/
def execCoth (a : Word) (s : State) : Result :=
  let c := s.cfg
  let v := signed c a
  s.answer (if v = 0 then Response.raise .cothZero else Response.one c (cothValue c v))

/-- The value of ASINH (R181). -/
def asinhValue (c : Config) (v : Int) : Int :=
  let a := absInt v
  withSign v
    (if a < taylorT c then taylorAsinh c a
     else lnRatio c (a.toNat + isqrtNr c (a * a + one c * one c).toNat) (one c).toNat)

/-- ASINH (R181). -/
def execAsinh (a : Word) (s : State) : Result :=
  let c := s.cfg
  s.answer (Response.one c (asinhValue c (signed c a)))

/-- ACOSH (R182): error 2 when `v < 1`. -/
def execAcosh (a : Word) (s : State) : Result :=
  let c := s.cfg
  let v := signed c a
  s.answer (
    if v < one c then Response.raise .acoshDomain
    else Response.one c (lnRatio c (v.toNat + isqrtNr c (v * v - one c * one c).toNat) (one c).toNat))

/-- ATANH (R183): error 3 when `|v| >= 1`. -/
def execAtanh (a : Word) (s : State) : Result :=
  let c := s.cfg
  let v := signed c a
  s.answer (
    if absInt v ≥ one c then Response.raise .atanhDomain
    else Response.one c
      (withSign v (halfLnRatio c (one c + absInt v).toNat (one c - absInt v).toNat)))

/-- ACOTH (R184): error 4 when `|v| <= 1`. -/
def execAcoth (a : Word) (s : State) : Result :=
  let c := s.cfg
  let v := signed c a
  s.answer (
    if absInt v ≤ one c then Response.raise .acothDomain
    else Response.one c
      (withSign v (halfLnRatio c (absInt v + one c).toNat (absInt v - one c).toNat)))

end Sys2Proof.Machine
end

