-- ==== Sys2Proof/Machine/Primitives.lean ====
section
/-! DEFINITION. The primitive commands ADD, SUB, MUL, DIV, SHL, SHR (40_primitives.md rules R94 to R99). -/

namespace Sys2Proof.Machine

/-- ADD (R94): `R0 <- sat(A + B)`. -/
def execAdd (a b : Word) (s : State) : Result :=
  let c := s.cfg
  s.answer (Response.one c (sat c (signed c a + signed c b)))

/-- SUB (R95): `R0 <- sat(A - B)`, the difference formed exactly and clamped once. -/
def execSub (a b : Word) (s : State) : Result :=
  let c := s.cfg
  s.answer (Response.one c (sat c (signed c a - signed c b)))

/-- MUL (R96): `R0 <- sat(fmul(A, B))`. -/
def execMul (a b : Word) (s : State) : Result :=
  let c := s.cfg
  s.answer (Response.one c (sat c (fmul c (signed c a) (signed c b))))

/-- DIV (R97): error 8 when `B = 0`, else `R0 <- sat(fdiv(A, B))`. -/
def execDiv (a b : Word) (s : State) : Result :=
  let c := s.cfg
  s.answer (
    if signed c b = 0 then Response.raise .divByZero
    else Response.one c (sat c (fdiv c (signed c a) (signed c b))))

/-- The value of SHL (R98): the first two branches say what `sat(a * 2^n)` is when `n >= W`. -/
def shlValue (c : Config) (a : Int) (n : Nat) : Int :=
  if a = 0 then 0
  else if n ≥ c.width then (if a > 0 then maxRaw c else minRaw c)
  else sat c (shl a n)

/-- SHL (R98), the count unsigned. -/
def execShl (a b : Word) (s : State) : Result :=
  let c := s.cfg
  s.answer (Response.one c (shlValue c (signed c a) (unsigned c b)))

/-- The value of SHR (R99). -/
def shrValue (c : Config) (a : Int) (n : Nat) : Int :=
  if n ≥ c.width then (if a ≥ 0 then 0 else -1) else asr a n

/-- SHR (R99), the count unsigned. -/
def execShr (a b : Word) (s : State) : Result :=
  let c := s.cfg
  s.answer (Response.one c (shrValue c (signed c a) (unsigned c b)))

end Sys2Proof.Machine
end

