-- ==== Sys2Proof/Machine/RawEngine.lean ====
section
/-! DEFINITION. The raw engine commands CROT, CVEC, HROT, HVEC (41_cordic_engine.md rules R120 to R123): the bound of rule
R112, then one engine run; the results are not saturated (rule R125 says that they fit). -/

namespace Sys2Proof.Machine

/-- CROT (R120). -/
def execCrot (a b d : Word) (s : State) : Result :=
  let c := s.cfg
  s.answer (
    if outsideEngine c (signed c a) (signed c b) (signed c d) then Response.raise .engineRange
    else Response.three c (crot c (signed c a) (signed c b) (signed c d)))

/-- CVEC (R121). -/
def execCvec (a b d : Word) (s : State) : Result :=
  let c := s.cfg
  s.answer (
    if outsideEngine c (signed c a) (signed c b) (signed c d) then Response.raise .engineRange
    else Response.three c (cvec c (signed c a) (signed c b) (signed c d)))

/-- HROT (R122). -/
def execHrot (a b d : Word) (s : State) : Result :=
  let c := s.cfg
  s.answer (
    if outsideEngine c (signed c a) (signed c b) (signed c d) then Response.raise .engineRange
    else Response.three c (hrot c (signed c a) (signed c b) (signed c d)))

/-- HVEC (R123). -/
def execHvec (a b d : Word) (s : State) : Result :=
  let c := s.cfg
  s.answer (
    if outsideEngine c (signed c a) (signed c b) (signed c d) then Response.raise .engineRange
    else Response.three c (hvec c (signed c a) (signed c b) (signed c d)))

end Sys2Proof.Machine
end

