-- ==== Sys2Proof/Machine/Trigonometric.lean ====
section
/-! DEFINITION. The trigonometric commands (42_trigonometric.md rules R143 to R153). -/

namespace Sys2Proof.Machine

/-- SIN (R143). -/
def execSin (a : Word) (s : State) : Result :=
  let c := s.cfg
  s.answer (Response.one c (sincos c (signed c a)).1)

/-- COS (R144). -/
def execCos (a : Word) (s : State) : Result :=
  let c := s.cfg
  s.answer (Response.one c (sincos c (signed c a)).2)

/-- SINCOS (R145): the sine in `R0`, the cosine in `R1`. -/
def execSincos (a : Word) (s : State) : Result :=
  let c := s.cfg
  s.answer (Response.two c (sincos c (signed c a)).1 (sincos c (signed c a)).2)

/-- `|cot|` at the signed distance `rE` from the pole, `rE` not 0 (R146): the Laurent form closer than 0.125 rad, else the
quotient of the engine's cosine and sine. -/
def cotMagnitude (c : Config) (rE : Int) : Int :=
  let dE := absInt rE
  if dE < 2 ^ (extBits c - 3) then
    let recip := floorDiv (2 ^ (extBits c + c.frac)) dE
    let d := asr dE (extBits c - c.frac)
    recip - cotSeries c d
  else
    let (cs, sn) := circParts c (asr rE (extBits c - c.frac))
    floorDiv (shl cs c.frac) (absInt sn)

/-- The value of TAN (R146): `sin/cos` in an even quadrant; in an odd one `-cot` of the distance from the pole, the sign from
the side of approach. The branch `rE = 0` is listed so that the function is total (I16). -/
def tanValue (c : Config) (t : Int) : Int :=
  let (q, rE) := reduceQuadrant c t
  if q = 0 ∨ q = 2 then
    let (cs, sn) := circParts c (asr rE (extBits c - c.frac))
    sat c (fdiv c sn cs)
  else if rE = 0 then minRaw c
  else if rE > 0 then sat c (-cotMagnitude c rE)
  else sat c (cotMagnitude c rE)

/-- TAN (R146). -/
def execTan (a : Word) (s : State) : Result :=
  let c := s.cfg
  s.answer (Response.one c (tanValue c (signed c a)))

/-- ATAN (R150): `atan2core(A, ONE)`. -/
def execAtan (a : Word) (s : State) : Result :=
  let c := s.cfg
  s.answer (Response.one c (atan2core c (signed c a) (one c)))

/-- ATAN2 (R149): `A` is y, `B` is x. -/
def execAtan2 (a b : Word) (s : State) : Result :=
  let c := s.cfg
  s.answer (Response.one c (atan2core c (signed c a) (signed c b)))

/-- ASIN (R152): the angle of the vector `(w, v)`; error 1 when `|v| > 1`. -/
def execAsin (a : Word) (s : State) : Result :=
  let c := s.cfg
  let v := signed c a
  s.answer (
    if absInt v > one c then Response.raise .asinAcosDomain
    else Response.one c (atan2core c v (asinW c v)))

/-- ACOS (R153): the angle of the vector `(v, w)`; error 1 when `|v| > 1`. -/
def execAcos (a : Word) (s : State) : Result :=
  let c := s.cfg
  let v := signed c a
  s.answer (
    if absInt v > one c then Response.raise .asinAcosDomain
    else Response.one c (atan2core c (asinW c v) v))

end Sys2Proof.Machine
end

