-- ==== Sys2Proof/Machine/Dispatch.lean ====
section
/-! DEFINITION. The meaning of each command, one arm per row of rule R74. -/

namespace Sys2Proof.Machine

def exec (i : Instr) (s : State) : Host.Outcome State Fault Refusal :=
  match i with
  | .add a b => Sys2Proof.Machine.execAdd a b s
  | .sub a b => Sys2Proof.Machine.execSub a b s
  | .mul a b => Sys2Proof.Machine.execMul a b s
  | .div a b => Sys2Proof.Machine.execDiv a b s
  | .shl a b => Sys2Proof.Machine.execShl a b s
  | .shr a b => Sys2Proof.Machine.execShr a b s
  | .crot a b c => Sys2Proof.Machine.execCrot a b c s
  | .cvec a b c => Sys2Proof.Machine.execCvec a b c s
  | .hrot a b c => Sys2Proof.Machine.execHrot a b c s
  | .hvec a b c => Sys2Proof.Machine.execHvec a b c s
  | .sin a => Sys2Proof.Machine.execSin a s
  | .cos a => Sys2Proof.Machine.execCos a s
  | .tan a => Sys2Proof.Machine.execTan a s
  | .sincos a => Sys2Proof.Machine.execSincos a s
  | .atan a => Sys2Proof.Machine.execAtan a s
  | .atan2 a b => Sys2Proof.Machine.execAtan2 a b s
  | .asin a => Sys2Proof.Machine.execAsin a s
  | .acos a => Sys2Proof.Machine.execAcos a s
  | .sinh a => Sys2Proof.Machine.execSinh a s
  | .cosh a => Sys2Proof.Machine.execCosh a s
  | .tanh a => Sys2Proof.Machine.execTanh a s
  | .sinhcosh a => Sys2Proof.Machine.execSinhcosh a s
  | .asinh a => Sys2Proof.Machine.execAsinh a s
  | .acosh a => Sys2Proof.Machine.execAcosh a s
  | .atanh a => Sys2Proof.Machine.execAtanh a s
  | .acoth a => Sys2Proof.Machine.execAcoth a s
  | .coth a => Sys2Proof.Machine.execCoth a s
  | .exp a => Sys2Proof.Machine.execExp a s
  | .pow2 a => Sys2Proof.Machine.execPow2 a s
  | .ln a => Sys2Proof.Machine.execLn a s
  | .log2 a => Sys2Proof.Machine.execLog2 a s
  | .log10 a => Sys2Proof.Machine.execLog10 a s
  | .sqrt a => Sys2Proof.Machine.execSqrt a s

end Sys2Proof.Machine
end

