-- ==== Sys2Proof/Machine/Handshake.lean ====
section
/-! DEFINITION. The ports and the handshake (10_state.md rules R21 to R24) and reset (70_reset_and_hazards.md rules R270, R271):
which of the steps `accept`, `compute`, `deliver` the engine takes, given what the host drives. -/

namespace Sys2Proof.Machine

/-- The `rsp` port. A beat of configuration `c` is the low `4 + 3W` bits (R71): 100 or 196 bits. -/
abbrev RspBeat := BitVec 196

/-- The response beat `ERR ∥ R0 ∥ R1 ∥ R2` (R71). -/
def Response.toBeat (c : Config) (r : Response) : RspBeat :=
  BitVec.ofNat 196
    ((((Err.code r.err).toNat * 2 ^ c.width + r.r0.toNat % 2 ^ c.width) * 2 ^ c.width + r.r1.toNat % 2 ^ c.width)
      * 2 ^ c.width + r.r2.toNat % 2 ^ c.width)

/-- What the engine drives on its output ports (R21). `rsp` is `none` where the spec leaves the port unspecified (R23, I5; log
entry 7). -/
structure PortsOut where
  cmdReady : Bool
  rspValid : Bool
  rsp : Option RspBeat
deriving DecidableEq, Repr

/-- What the host drives during the coming step. -/
def State.pins (s : State) : Pins :=
  match s.inputs with
  | [] => Pins.idle
  | p :: _ => p

/-- The output ports during the coming step (R23, R270): ready in IDLE, valid in RESP, both 0 while `rst = 1`. They depend on
neither `cmd_valid` nor `rsp_ready` (R22). -/
def outputs (s : State) : PortsOut :=
  let valid := decide (s.phase = .resp) && !s.pins.rst
  { cmdReady := decide (s.phase = .idle) && !s.pins.rst
    rspValid := valid
    rsp := if valid then some (s.rspQ.toBeat s.cfg) else none }

/-- The host goes on to its next port values. -/
def State.tick (s : State) : State := { s with inputs := s.inputs.tail }

/-- The host offers a beat in a step in which `cmd_ready = 0`: it is waiting (R22, R276 (a)). -/
def State.noteOffer (s : State) (p : Pins) : State :=
  if p.cmdValid then
    let cmd := Command.ofBeat s.cfg p.cmd
    if cmd ∈ s.offers then s else { s with offers := s.offers ++ [cmd] }
  else s

/-- The offered beat that one field is latched from, when the host has changed the beat while waiting (I7): a free value. -/
def State.pickOffer (s : State) (cmd : Command) (k : Nat) : Command :=
  let beats := s.offers ++ [cmd]
  beats.getD (Config.freePick (s.free + k) % beats.length) cmd

/-- The `accept` step with the beat `cmd` on the port. A host that kept R276 (a) has offered no other beat since the last
acceptance, and `cmd` is latched; otherwise each field comes from one of the offered beats, unspecified which (I7; log entry 6). -/
def State.latch (s : State) (cmd : Command) : State :=
  if s.offers.all (fun o => decide (o = cmd)) then s.accept cmd
  else
    { s.accept
        { opc := (s.pickOffer cmd 0).opc
          a := (s.pickOffer cmd 1).a
          b := (s.pickOffer cmd 2).b
          c := (s.pickOffer cmd 3).c } with
      free := s.free + 4 }

/-- What one step brings. -/
inductive Cycle where
  /-- A reset, an `accept`, a `deliver`, or nothing: the state after the step. -/
  | settled (t : State)
  /-- The `compute` step of `t.cmdQ`. -/
  | compute (t : State)
deriving DecidableEq, Repr

/-- Which step the engine takes (R24, R270): reset before everything, else by the phase. A step in which neither side transfers
leaves the engine as it is, for any number of steps (R22, R276). -/
def cycle (s : State) : Cycle :=
  let p := s.pins
  if p.rst then .settled (s.tick.noteOffer p).resetEngine
  else
    match s.phase with
    | .idle => .settled (if p.cmdValid then s.tick.latch (Command.ofBeat s.cfg p.cmd) else s.tick)
    | .busy => .compute (s.tick.noteOffer p)
    | .resp => .settled (if p.rspReady then (s.tick.noteOffer p).deliver else s.tick.noteOffer p)

/-- The `compute` step of a command whose opcode is not in the table of rule R74: no arithmetic, `ERR = 10` (R77, R78). -/
def illegalCommand (s : State) : Result := s.answer (Response.raise .illegalOp)

/-- `s` with the command `cmd` accepted and about to be computed: what an `accept` of that beat leaves, and no reset at the
coming step (log entry 5). -/
def State.loadCommand (s : State) (cmd : Command) : State :=
  { s with
    cmdQ := cmd
    phase := .busy
    inputs :=
      match s.inputs with
      | [] => []
      | p :: ps => { p with rst := false } :: ps }

end Sys2Proof.Machine
end

