-- ==== Sys2Proof/Machine/Step.lean ====
section
/-! DEFINITION. One step of the engine: a rising clock edge, the whole `compute` step being one (10_state.md rule R24). -/

namespace Sys2Proof.Machine

/-- One step. `exec` of rule R78 is the match on the decoded command: the table's commands run their meaning, every other
opcode is answered `ERR = 10`. -/
def step (s : State) : Host.Outcome State Fault Refusal :=
  match cycle s with
  | .settled t => .next t
  | .compute t =>
    match decode t.cmdQ with
    | .command i => exec i t
    | .rejected _ => illegalCommand t

/-- `s` with the command of the table word `w` in `cmd_q` and the engine in BUSY, so that the next step computes it (log entries
5 and 9). -/
def State.withFetchWord (s : State) (nbits w : Nat) : State := s.loadCommand (tableCommand s.cfg nbits w)

end Sys2Proof.Machine
end

