-- ==== Sys2Proof/Machine/Assembler.lean ====
section
/-! DEFINITION. The assembler's operand forms, mnemonics and pseudo-instructions (30_encoding.md rules R83, R84). The text of a
statement is not parsed; a statement is given by its parts. -/

namespace Sys2Proof.Machine

/-- The constant names of rule R83. -/
inductive ConstName where
  | one
  | half
  | max
  | min
  | kc
  | kh
  | pi
  | halfPi
  | ln2
deriving DecidableEq, Repr

/-- The raw value of a constant name (R83). -/
def ConstName.value (c : Config) : ConstName → Int
  | .one => Sys2Proof.Machine.one c
  | .half => Sys2Proof.Machine.half c
  | .max => maxRaw c
  | .min => minRaw c
  | .kc => kC c
  | .kh => kH c
  | .pi => Sys2Proof.Machine.pi c
  | .halfPi => Sys2Proof.Machine.halfPi c
  | .ln2 => Sys2Proof.Machine.ln2 c

/-- An operand (R83). -/
inductive Operand where
  /-- `#d`, the decimal number `digits / 10^places`. -/
  | real (digits : Int) (places : Nat)
  /-- `#0xH`. -/
  | hex (bits : Nat)
  /-- A constant name. -/
  | const (name : ConstName)
  /-- `label.Rk`, a result word of an earlier statement. -/
  | ref (label : String) (k : Nat)
deriving DecidableEq, Repr

/-- A statement `[label:] MNEMONIC operand, ...` (R83); the label may be absent. -/
structure Stmt where
  label : Option String
  mnemonic : String
  operands : List Operand
deriving DecidableEq, Repr

/-- The responses a host has recorded, in the order of the statements, each under its statement's label (R85). DESIGN CHOICE (log
entry 11): the response of a statement without a label is recorded in its place without one, and no operand can name it. -/
abbrev Records := List (Option String × Response)

/-- The response that `label` names (R83). DESIGN CHOICE (log entry 11): where several statements have the label, the earliest. -/
def Records.find (env : Records) (label : String) : Option Response := env.lookup (some label)

/-- The result word `Rk` of a response. -/
def Response.field (r : Response) : Nat → Option Word
  | 0 => some r.r0
  | 1 => some r.r1
  | 2 => some r.r2
  | _ => none

/-- The word an operand stands for; `none` where the assembler rejects it (R83). DESIGN CHOICE (log entry 11): a label with no
recorded response is rejected. -/
def Operand.resolve (c : Config) (env : Records) : Operand → Option Word
  | .real d n =>
    let v := floorDiv (2 * d * 2 ^ c.frac + 10 ^ n) (2 * 10 ^ n)
    if minRaw c ≤ v ∧ v ≤ maxRaw c then some (word c v) else none
  | .hex h => if h < 2 ^ c.width then some (BitVec.ofNat 64 h) else none
  | .const n => some (word c (n.value c))
  | .ref l k => (Records.find env l).bind fun r => r.field k

/-- The mnemonics of rule R74 with their opcode and how many operands their format reads. -/
def mnemonicTable : List (String × BitVec 8 × Nat) :=
  [("ADD", 0x01, 2), ("SUB", 0x02, 2), ("MUL", 0x03, 2), ("DIV", 0x04, 2), ("SHL", 0x05, 2), ("SHR", 0x06, 2),
   ("CROT", 0x10, 3), ("CVEC", 0x11, 3), ("HROT", 0x12, 3), ("HVEC", 0x13, 3),
   ("SIN", 0x20, 1), ("COS", 0x21, 1), ("TAN", 0x22, 1), ("SINCOS", 0x23, 1), ("ATAN", 0x24, 1), ("ATAN2", 0x25, 2),
   ("ASIN", 0x26, 1), ("ACOS", 0x27, 1),
   ("SINH", 0x30, 1), ("COSH", 0x31, 1), ("TANH", 0x32, 1), ("SINHCOSH", 0x33, 1), ("ASINH", 0x34, 1), ("ACOSH", 0x35, 1),
   ("ATANH", 0x36, 1), ("ACOTH", 0x37, 1), ("COTH", 0x38, 1),
   ("EXP", 0x40, 1), ("POW2", 0x41, 1), ("LN", 0x42, 1), ("LOG2", 0x43, 1), ("LOG10", 0x44, 1), ("SQRT", 0x50, 1)]

/-- The pseudo-instructions of rule R84 replaced by their expansions; any other statement as it is. -/
def expandPseudo (m : String) (ops : List Operand) : String × List Operand :=
  match m, ops with
  | "NEG", [a] => ("SUB", [.real 0 0, a])
  | "RECIP", [a] => ("DIV", [.const .one, a])
  | "DOUBLE", [a] => ("SHL", [a, .hex 1])
  | "HALVE", [a] => ("SHR", [a, .hex 1])
  | "MOV", [a] => ("ADD", [a, .real 0 0])
  | "NOP", [] => ("ADD", [.real 0 0, .real 0 0])
  | _, _ => (m, ops)

/-- The command of a statement (R83): as many operands as the format reads, in the order `A`, `B`, `C`, zeros elsewhere (R76).
What is no statement in the notation of R83, by its mnemonic or its number of operands, is `none`. -/
def assemble (c : Config) (env : Records) (st : Stmt) : Option Command :=
  let (m, ops) := expandPseudo st.mnemonic st.operands
  (mnemonicTable.lookup m).bind fun (opc, n) =>
    (ops.mapM (Operand.resolve c env)).bind fun ws =>
      if ws.length = n then
        some { opc := opc, a := ws.getD 0 0, b := ws.getD 1 0, c := ws.getD 2 0 }
      else none

end Sys2Proof.Machine
end

