-- ==== Sys2Proof/Machine/Script.lean ====
section
/-! DEFINITION. The host of this spec's test programs (30_encoding.md rule R85): it issues the statements of a script in order,
each through the ports, and stops after the first response with an error. -/

namespace Sys2Proof.Machine

/-- What a host drives to get one command through an idle engine (R22, R24): `before` steps in which it asks for nothing, the
offer, one step for `compute`, `after` steps in which it has no room for the response, and the one in which it takes it. -/
def hostTurn (c : Config) (before : Nat) (cmd : Command) (after : Nat) : List Pins :=
  List.replicate before Pins.idle
    ++ [{ Pins.idle with cmdValid := true, cmd := cmd.toBeat c }, Pins.idle]
    ++ List.replicate after Pins.idle
    ++ [{ Pins.idle with rspReady := true }]

/-- One command issued on an idle engine: the state after it, with the response received. -/
def issue (s : State) (cmd : Command) : Host.Outcome State Fault Refusal :=
  Sys2Proof.core.run 3 { s with inputs := hostTurn s.cfg 0 cmd 0 }

/-- The rest of a script (R85): the recorded responses. DESIGN CHOICE (log entry 11): a
statement that the assembler rejects ends the script there. -/
def runScript (s : State) (env : Records) : List Stmt → Records
  | [] => env
  | st :: rest =>
    match assemble s.cfg env st with
    | none => env
    | some cmd =>
      match issue s cmd with
      | .next t =>
        match t.received.getLast? with
        | none => env
        | some r =>
          let env' := env ++ [(st.label, r)]
          if r.err = .none then runScript t env' rest else env'
      | .fault _ => env
      | .refused _ => env

end Sys2Proof.Machine
end

