-- ==== Sys2Proof/Safety.lean ====
section
/-! DEFINITION. The terms in which claims about runs are stated: the engine as a pure function (10_state.md rule R25), and what a
good state is. -/

namespace Sys2Proof.Machine

/-- The response of a decoded command on an engine of configuration `c`, as a pure function (R25): what its meaning puts in
`rsp_q`. -/
def respond (c : Config) (i : Instr) : Response :=
  match exec i (State.resetOf c) with
  | .next t => t.rspQ
  | .fault _ => Response.zero
  | .refused _ => Response.zero

/-- `exec(cmd)` of rule R78 as a pure function of configuration and command. -/
def execCommand (c : Config) (cmd : Command) : Response :=
  match decode cmd with
  | .command i => respond c i
  | .rejected _ => Response.raise .illegalOp

/-- The three result words are words of configuration `c`, and they are zero when the response is an error (R76, R242). -/
def Response.good (c : Config) (r : Response) : Bool :=
  Word.fits c r.r0 && Word.fits c r.r1 && Word.fits c r.r2
    && (decide (r.err = .none) || decide (r.r0 = 0 ∧ r.r1 = 0 ∧ r.r2 = 0))

/-- A good state: every word the engine holds is a word of its configuration, every error response has zero results, and the
response on offer is the one that rule R78 gives the latched command (R24, R25). -/
def State.good (s : State) : Bool :=
  s.cmdQ.wellFormed s.cfg
    && s.rspQ.good s.cfg
    && s.offers.all (Command.wellFormed s.cfg)
    && s.received.all (Response.good s.cfg)
    && (decide (s.phase ≠ .resp) || decide (s.rspQ = execCommand s.cfg s.cmdQ))

/-- The clamp to `[MIN, MAX]` that rule R91 calls saturation, as a bound from below and from above. -/
def clamp (c : Config) (v : Int) : Int := max (minRaw c) (min (maxRaw c) v)

/-- The command `i` COMPLETES with the one value `v` (formats U1 and B1): `v` is the raw value of a word, the meaning answers a
next state, `ERR = 0`, `R0` is that word, the results not written are zero (R76), the phase is RESP, and NOTHING ELSE of the state
changes. -/
def AnswersOne (i : Instr) (s : State) (v : Int) : Prop :=
  minRaw s.cfg ≤ v ∧ v ≤ maxRaw s.cfg ∧
    exec i s = .next { s with rspQ := { err := .none, r0 := word s.cfg v, r1 := 0, r2 := 0 }, phase := .resp }

/-- The same with two values (format U2). -/
def AnswersTwo (i : Instr) (s : State) (v w : Int) : Prop :=
  (minRaw s.cfg ≤ v ∧ v ≤ maxRaw s.cfg) ∧ (minRaw s.cfg ≤ w ∧ w ≤ maxRaw s.cfg) ∧
    exec i s = .next
      { s with rspQ := { err := .none, r0 := word s.cfg v, r1 := word s.cfg w, r2 := 0 }, phase := .resp }

/-- The three integers are raw values of words. -/
def InRange (c : Config) (v : Xyz) : Prop :=
  (minRaw c ≤ v.1 ∧ v.1 ≤ maxRaw c) ∧ (minRaw c ≤ v.2.1 ∧ v.2.1 ≤ maxRaw c) ∧ (minRaw c ≤ v.2.2 ∧ v.2.2 ≤ maxRaw c)

/-- The same with three values (format T3). -/
def AnswersThree (i : Instr) (s : State) (v : Xyz) : Prop :=
  InRange s.cfg v ∧
    exec i s = .next
      { s with
        rspQ := { err := .none, r0 := word s.cfg v.1, r1 := word s.cfg v.2.1, r2 := word s.cfg v.2.2 }, phase := .resp }

/-- The command `i` answers the error `e` (R242): a next state with `ERR = e` and zero results, and nothing else changes. -/
def AnswersError (i : Instr) (s : State) (e : Err) : Prop :=
  exec i s = .next { s with rspQ := { err := e, r0 := 0, r1 := 0, r2 := 0 }, phase := .resp }

/-- Every beat with opcode `opc` is the command that `mk` makes of its field `A` (formats U1 and U2); `B` and `C` are ignored. -/
def ReadsA (opc : BitVec 8) (mk : Word → Instr) : Prop :=
  ∀ cmd : Command, cmd.opc = opc → decode cmd = .command (mk cmd.a)

/-- Every beat with opcode `opc` is the command that `mk` makes of its fields `A` and `B` (format B1); `C` is ignored. -/
def ReadsAB (opc : BitVec 8) (mk : Word → Word → Instr) : Prop :=
  ∀ cmd : Command, cmd.opc = opc → decode cmd = .command (mk cmd.a cmd.b)

/-- Every beat with opcode `opc` is the command that `mk` makes of its fields `A`, `B` and `C` (format T3). -/
def ReadsABC (opc : BitVec 8) (mk : Word → Word → Word → Instr) : Prop :=
  ∀ cmd : Command, cmd.opc = opc → decode cmd = .command (mk cmd.a cmd.b cmd.c)

/-- The operand bound of the raw engine commands (R112). -/
def InEngineBound (c : Config) (x y z : Int) : Prop :=
  |x| ≤ 2 ^ (c.width - 4) ∧ |y| ≤ 2 ^ (c.width - 4) ∧ |z| ≤ 2 ^ (c.width - 2)

/-- `beat[lo+w-1 : lo]`, a field of `w` bits of a beat, as a word (R12). -/
def bitsAt {n : Nat} (beat : BitVec n) (lo w : Nat) : Word := (beat.extractLsb' lo w).setWidth 64

/-- `v = rn(x)`: the integer `v` is nearer to the real number `x` than any other integer (R52). -/
def NearestTo (v : Int) (x : ℝ) : Prop := |(v : ℝ) - x| < 1 / 2

/-- `t` is the smallest raw value whose real value `t / 2^F` has the property `p` (R59). -/
def LeastRaw (c : Config) (p : ℝ → Prop) (t : Int) : Prop :=
  IsLeast {x : Int | minRaw c ≤ x ∧ x ≤ maxRaw c ∧ p ((x : ℝ) / 2 ^ c.frac)} t

/-- The word whose raw value is the negation. -/
def negWord (c : Config) (w : Word) : Word := word c (-signed c w)

end Sys2Proof.Machine
end

