-- ==== Sys2Proof/Certificates/Slice0/Obligations.lean ====
section
/-! DEFINITION. The statements for the provers. `AnswersOne` and its kin (Sys2Proof/Safety.lean) say that the meaning answers a
next state, which word each result field holds, and that nothing else of the state changes: completion and frame at once. -/

open Sys2Proof Sys2Proof.Machine

/-! ## Primitives (40_primitives.md) -/

/-- R94. -/
def Obligations.AddSaturates : Prop :=
  ReadsAB 0x01#8 .add ∧
    ∀ (s : State) (a b : Word), AnswersOne (.add a b) s (clamp s.cfg (signed s.cfg a + signed s.cfg b))

/-- R95. -/
def Obligations.SubSaturates : Prop :=
  ReadsAB 0x02#8 .sub ∧
    ∀ (s : State) (a b : Word), AnswersOne (.sub a b) s (clamp s.cfg (signed s.cfg a - signed s.cfg b))

/-- R96: the exact product of the real values, floored once, clamped once. -/
def Obligations.MulFloorsAndSaturates : Prop :=
  ReadsAB 0x03#8 .mul ∧
    ∀ (s : State) (a b : Word),
      AnswersOne (.mul a b) s
        (clamp s.cfg ⌊((signed s.cfg a : ℚ) * (signed s.cfg b : ℚ)) / 2 ^ s.cfg.frac⌋)

/-- R97: error 8 for a zero divisor, else the exact quotient, floored once, clamped once. -/
def Obligations.DivFloorsAndSaturates : Prop :=
  ReadsAB 0x04#8 .div ∧
    ∀ (s : State) (a b : Word),
      (signed s.cfg b = 0 → AnswersError (.div a b) s .divByZero) ∧
      (signed s.cfg b ≠ 0 →
        AnswersOne (.div a b) s
          (clamp s.cfg ⌊((signed s.cfg a : ℚ) * 2 ^ s.cfg.frac) / (signed s.cfg b : ℚ)⌋))

/-- R98: the saturated exact product by a power of two, for every unsigned count. -/
def Obligations.ShlSaturatesExactly : Prop :=
  ReadsAB 0x05#8 .shl ∧
    ∀ (s : State) (a b : Word),
      AnswersOne (.shl a b) s (clamp s.cfg (signed s.cfg a * 2 ^ (unsigned s.cfg b)))

/-- R99: the floor of the quotient by a power of two, for every unsigned count. -/
def Obligations.ShrFloors : Prop :=
  ReadsAB 0x06#8 .shr ∧
    ∀ (s : State) (a b : Word),
      AnswersOne (.shr a b) s ⌊(signed s.cfg a : ℚ) / 2 ^ (unsigned s.cfg b)⌋

/-- Identities of R103. -/
def Obligations.PrimitiveIdentities : Prop :=
  ∀ (c : Config) (a b : Word),
    respond c (.add a b) = respond c (.add b a) ∧
    respond c (.mul a b) = respond c (.mul b a) ∧
    respond c (.sub a a) = { err := .none, r0 := 0, r1 := 0, r2 := 0 } ∧
    (Word.fits c a = true →
      respond c (.mul a (word c (one c))) = { err := .none, r0 := a, r1 := 0, r2 := 0 } ∧
      respond c (.div a (word c (one c))) = { err := .none, r0 := a, r1 := 0, r2 := 0 }) ∧
    (∀ n : ℕ, (2 : ℤ) ^ (c.frac + n) ≤ maxRaw c →
      respond c (.shl a (BitVec.ofNat 64 n)) = respond c (.mul a (word c (2 ^ (c.frac + n))))) ∧
    (∀ n : ℕ, n ≤ c.frac →
      (respond c (.shr a (BitVec.ofNat 64 n))).r0 = word c (fmul c (signed c a) (2 ^ (c.frac - n)))) ∧
    (∀ n : ℕ, n < 2 ^ c.width → Word.fits c a = true →
      minRaw c ≤ signed c a * 2 ^ n → signed c a * 2 ^ n ≤ maxRaw c →
      respond c (.shr (respond c (.shl a (BitVec.ofNat 64 n))).r0 (BitVec.ofNat 64 n)) =
        { err := .none, r0 := a, r1 := 0, r2 := 0 })

/-! ## The raw engine (41_cordic_engine.md) -/

/-- R120. -/
def Obligations.CrotRunsOrRefusesRange : Prop :=
  ReadsABC 0x10#8 .crot ∧
    ∀ (s : State) (a b d : Word),
      (InEngineBound s.cfg (signed s.cfg a) (signed s.cfg b) (signed s.cfg d) →
        AnswersThree (.crot a b d) s (crot s.cfg (signed s.cfg a) (signed s.cfg b) (signed s.cfg d))) ∧
      (¬ InEngineBound s.cfg (signed s.cfg a) (signed s.cfg b) (signed s.cfg d) →
        AnswersError (.crot a b d) s .engineRange)

/-- R121. -/
def Obligations.CvecRunsOrRefusesRange : Prop :=
  ReadsABC 0x11#8 .cvec ∧
    ∀ (s : State) (a b d : Word),
      (InEngineBound s.cfg (signed s.cfg a) (signed s.cfg b) (signed s.cfg d) →
        AnswersThree (.cvec a b d) s (cvec s.cfg (signed s.cfg a) (signed s.cfg b) (signed s.cfg d))) ∧
      (¬ InEngineBound s.cfg (signed s.cfg a) (signed s.cfg b) (signed s.cfg d) →
        AnswersError (.cvec a b d) s .engineRange)

/-- R122. -/
def Obligations.HrotRunsOrRefusesRange : Prop :=
  ReadsABC 0x12#8 .hrot ∧
    ∀ (s : State) (a b d : Word),
      (InEngineBound s.cfg (signed s.cfg a) (signed s.cfg b) (signed s.cfg d) →
        AnswersThree (.hrot a b d) s (hrot s.cfg (signed s.cfg a) (signed s.cfg b) (signed s.cfg d))) ∧
      (¬ InEngineBound s.cfg (signed s.cfg a) (signed s.cfg b) (signed s.cfg d) →
        AnswersError (.hrot a b d) s .engineRange)

/-- R123. -/
def Obligations.HvecRunsOrRefusesRange : Prop :=
  ReadsABC 0x13#8 .hvec ∧
    ∀ (s : State) (a b d : Word),
      (InEngineBound s.cfg (signed s.cfg a) (signed s.cfg b) (signed s.cfg d) →
        AnswersThree (.hvec a b d) s (hvec s.cfg (signed s.cfg a) (signed s.cfg b) (signed s.cfg d))) ∧
      (¬ InEngineBound s.cfg (signed s.cfg a) (signed s.cfg b) (signed s.cfg d) →
        AnswersError (.hvec a b d) s .engineRange)

/-- R125: under the bound of R112 every intermediate and final `x`, `y`, `z` of each of the four runs is a raw value. -/
def Obligations.EngineNeverOverflows : Prop :=
  ∀ (c : Config) (x y z : ℤ) (k : ℕ), InEngineBound c x y z →
    InRange c (((circSteps c).take k).foldl crotIter (x, y, z)) ∧
    InRange c (((circSteps c).take k).foldl cvecIter (x, y, z)) ∧
    InRange c (((htab c).take k).foldl hrotIter (x, y, z)) ∧
    InRange c (((htab c).take k).foldl hvecIter (x, y, z))

/-- R114, R115: the counted loops, with the direction tests of R111. -/
def Obligations.CircularIterations : Prop :=
  ∀ (c : Config) (x y z : ℤ),
    (∃ t : ℕ → ℤ × ℤ × ℤ, t 0 = (x, y, z) ∧
      (∀ i, i < c.frac + 1 →
        t (i + 1) =
          if (t i).2.2 ≥ 0 then
            ((t i).1 - ⌊((t i).2.1 : ℚ) / 2 ^ i⌋, (t i).2.1 + ⌊((t i).1 : ℚ) / 2 ^ i⌋, (t i).2.2 - (ctab c).getD i 0)
          else
            ((t i).1 + ⌊((t i).2.1 : ℚ) / 2 ^ i⌋, (t i).2.1 - ⌊((t i).1 : ℚ) / 2 ^ i⌋, (t i).2.2 + (ctab c).getD i 0)) ∧
      crot c x y z = t (c.frac + 1)) ∧
    (∃ t : ℕ → ℤ × ℤ × ℤ, t 0 = (x, y, z) ∧
      (∀ i, i < c.frac + 1 →
        t (i + 1) =
          if (t i).2.1 < 0 then
            ((t i).1 - ⌊((t i).2.1 : ℚ) / 2 ^ i⌋, (t i).2.1 + ⌊((t i).1 : ℚ) / 2 ^ i⌋, (t i).2.2 - (ctab c).getD i 0)
          else
            ((t i).1 + ⌊((t i).2.1 : ℚ) / 2 ^ i⌋, (t i).2.1 - ⌊((t i).1 : ℚ) / 2 ^ i⌋, (t i).2.2 + (ctab c).getD i 0)) ∧
      cvec c x y z = t (c.frac + 1))

/-- R116, R117: the counted loops over the schedule, repeats included. -/
def Obligations.HyperbolicIterations : Prop :=
  ∀ (c : Config) (x y z : ℤ),
    (∃ t : ℕ → ℤ × ℤ × ℤ, t 0 = (x, y, z) ∧
      (∀ j, j < c.frac + 2 → ∃ h : HEntry, (htab c)[j]? = some h ∧
        t (j + 1) =
          if (t j).2.2 ≥ 0 then
            ((t j).1 + ⌊((t j).2.1 : ℚ) / 2 ^ h.shift⌋, (t j).2.1 + ⌊((t j).1 : ℚ) / 2 ^ h.shift⌋, (t j).2.2 - h.value)
          else
            ((t j).1 - ⌊((t j).2.1 : ℚ) / 2 ^ h.shift⌋, (t j).2.1 - ⌊((t j).1 : ℚ) / 2 ^ h.shift⌋, (t j).2.2 + h.value)) ∧
      hrot c x y z = t (c.frac + 2)) ∧
    (∃ t : ℕ → ℤ × ℤ × ℤ, t 0 = (x, y, z) ∧
      (∀ j, j < c.frac + 2 → ∃ h : HEntry, (htab c)[j]? = some h ∧
        t (j + 1) =
          if (t j).2.1 < 0 then
            ((t j).1 + ⌊((t j).2.1 : ℚ) / 2 ^ h.shift⌋, (t j).2.1 + ⌊((t j).1 : ℚ) / 2 ^ h.shift⌋, (t j).2.2 - h.value)
          else
            ((t j).1 - ⌊((t j).2.1 : ℚ) / 2 ^ h.shift⌋, (t j).2.1 - ⌊((t j).1 : ℚ) / 2 ^ h.shift⌋, (t j).2.2 + h.value)) ∧
      hvec c x y z = t (c.frac + 2))

/-! ## Trigonometric commands (42_trigonometric.md) -/

/-- R140: the nearest multiple of π/2 and the remainder; with R57 (trailing zeros of `HALFPI_E`), an odd multiple never leaves a
zero remainder (R146), for an argument with `F` fractional bits. -/
def Obligations.QuadrantReductionExact : Prop :=
  ∀ (c : Config) (t : ℤ), ∃ q : ℤ,
    t * 2 ^ (c.width - c.frac) = q * halfPiE c + (reduceQuadrant c t).2 ∧
    (reduceQuadrant c t).1 = q % 4 ∧
    -halfPiE c ≤ 2 * (reduceQuadrant c t).2 ∧ 2 * (reduceQuadrant c t).2 < halfPiE c ∧
    (q % 2 = 1 → (reduceQuadrant c t).2 ≠ 0)

/-- R141: cosine and sine of a reduced angle. -/
def Obligations.CircularKernelClamped : Prop :=
  ∀ (c : Config) (r : ℤ),
    (r = 0 → circParts c r = (one c, 0)) ∧
    (r ≠ 0 → circParts c r =
      (min (crot c (kC c) 0 r).1 (one c), max (-one c) (min (crot c (kC c) 0 r).2.1 (one c)))) ∧
    (2 * |r| ≤ halfPi c + 2 →
      0 < (circParts c r).1 ∧ (circParts c r).1 ≤ one c ∧ |(circParts c r).2| ≤ one c)

/-- R143, R144, with the four cases of R142 written out. -/
def Obligations.SineAndCosine : Prop :=
  ReadsA 0x20#8 .sin ∧ ReadsA 0x21#8 .cos ∧
    ∀ (s : State) (a : Word) (q rE cs sn v w : ℤ),
      reduceQuadrant s.cfg (signed s.cfg a) = (q, rE) →
      circParts s.cfg ⌊(rE : ℚ) / 2 ^ (s.cfg.width - s.cfg.frac)⌋ = (cs, sn) →
      v = (if q = 0 then sn else if q = 1 then cs else if q = 2 then -sn else -cs) →
      w = (if q = 0 then cs else if q = 1 then -sn else if q = 2 then -cs else sn) →
      AnswersOne (.sin a) s v ∧ AnswersOne (.cos a) s w ∧ |v| ≤ one s.cfg ∧ |w| ≤ one s.cfg

/-- R145, R177: the pair commands return, bit for bit, what the two commands return. -/
def Obligations.PairCommandsAgree : Prop :=
  ReadsA 0x23#8 .sincos ∧ ReadsA 0x33#8 .sinhcosh ∧
    ∀ (s : State) (a : Word),
      (∃ v w : ℤ, AnswersOne (.sin a) s v ∧ AnswersOne (.cos a) s w ∧ AnswersTwo (.sincos a) s v w) ∧
      (∃ v w : ℤ, AnswersOne (.sinh a) s v ∧ AnswersOne (.cosh a) s w ∧ AnswersTwo (.sinhcosh a) s v w)

/-- R146, without the branch that it calls unreachable. -/
def Obligations.TangentByQuadrant : Prop :=
  ReadsA 0x22#8 .tan ∧
    ∀ (s : State) (a : Word) (c : Config) (q rE cs sn : ℤ), c = s.cfg →
      reduceQuadrant c (signed c a) = (q, rE) →
      circParts c ⌊(rE : ℚ) / 2 ^ (c.width - c.frac)⌋ = (cs, sn) →
      AnswersOne (.tan a) s
        (if q = 0 ∨ q = 2 then clamp c ⌊((sn : ℚ) * 2 ^ c.frac) / (cs : ℚ)⌋
        else
          let mag : ℤ :=
            if |rE| < 2 ^ (c.width - 3) then
              ⌊(2 : ℚ) ^ (c.width + c.frac) / (|rE| : ℤ)⌋ - cotSeries c ⌊((|rE| : ℤ) : ℚ) / 2 ^ (c.width - c.frac)⌋
            else ⌊((cs : ℚ) * 2 ^ c.frac) / (|sn| : ℤ)⌋
          if rE > 0 then clamp c (-mag) else clamp c mag)

/-- R147, R148, R149. -/
def Obligations.ArcTangentOfTwo : Prop :=
  ReadsAB 0x25#8 .atan2 ∧
    (∀ (c : Config) (ay ax : ℕ), 0 < ay → 0 < ax → ∃ xn yn : ℕ,
      xn < 2 ^ (c.width - 5) ∧ yn < 2 ^ (c.width - 5) ∧
      (Nat.log 2 (max ax ay) ≤ c.width - 6 →
        xn = ax * 2 ^ (c.width - 6 - Nat.log 2 (max ax ay)) ∧ yn = ay * 2 ^ (c.width - 6 - Nat.log 2 (max ax ay))) ∧
      (c.width - 6 < Nat.log 2 (max ax ay) →
        xn = ax / 2 ^ (Nat.log 2 (max ax ay) - (c.width - 6)) ∧
          yn = ay / 2 ^ (Nat.log 2 (max ax ay) - (c.width - 6))) ∧
      fqAngle c ay ax = max 0 (min (halfPi c) (cvec c xn yn 0).2.2)) ∧
    ∀ (s : State) (a b : Word) (y x phi : ℤ), y = signed s.cfg a → x = signed s.cfg b →
      phi = fqAngle s.cfg y.natAbs x.natAbs →
      AnswersOne (.atan2 a b) s
        (if y = 0 then (if x ≥ 0 then 0 else Machine.pi s.cfg)
        else if x = 0 then (if y > 0 then halfPi s.cfg else -halfPi s.cfg)
        else if x > 0 then (if y > 0 then phi else -phi)
        else (if y > 0 then Machine.pi s.cfg - phi else phi - Machine.pi s.cfg))

/-- R150. -/
def Obligations.ArcTangent : Prop :=
  ReadsA 0x24#8 .atan ∧
    ∀ (s : State) (a : Word),
      AnswersOne (.atan a) s (atan2core s.cfg (signed s.cfg a) (one s.cfg)) ∧
      |atan2core s.cfg (signed s.cfg a) (one s.cfg)| ≤ halfPi s.cfg

/-- R152, with the exact floor of the root (R151). -/
def Obligations.ArcSine : Prop :=
  ReadsA 0x26#8 .asin ∧
    ∀ (s : State) (a : Word) (v w : ℤ), v = signed s.cfg a →
      w = (Nat.sqrt ((one s.cfg - v) * (one s.cfg + v)).toNat : ℕ) →
      (|v| > one s.cfg → AnswersError (.asin a) s .asinAcosDomain) ∧
      (|v| ≤ one s.cfg →
        AnswersOne (.asin a) s (atan2core s.cfg v w) ∧ |atan2core s.cfg v w| ≤ halfPi s.cfg)

/-- R153, with the exact floor of the root (R151). -/
def Obligations.ArcCosine : Prop :=
  ReadsA 0x27#8 .acos ∧
    ∀ (s : State) (a : Word) (v w : ℤ), v = signed s.cfg a →
      w = (Nat.sqrt ((one s.cfg - v) * (one s.cfg + v)).toNat : ℕ) →
      (|v| > one s.cfg → AnswersError (.acos a) s .asinAcosDomain) ∧
      (|v| ≤ one s.cfg →
        AnswersOne (.acos a) s (atan2core s.cfg w v) ∧
          0 ≤ atan2core s.cfg w v ∧ atan2core s.cfg w v ≤ Machine.pi s.cfg)

/-! ## Hyperbolic commands (43_hyperbolic.md) -/

/-- R170. -/
def Obligations.LogTwoReductionExact : Prop :=
  ∀ (c : Config) (a : ℤ), ∃ k rE : ℤ,
    a * 2 ^ (c.width - c.frac) = k * ln2E c + rE ∧
    -ln2E c ≤ 2 * rE ∧ 2 * rE < ln2E c ∧
    reduceLn2 c a = (k, ⌊(rE : ℚ) / 2 ^ (c.width - c.frac)⌋) ∧
    2 * |⌊(rE : ℚ) / 2 ^ (c.width - c.frac)⌋| ≤ ln2 c + 2

/-- R171, R172: the hyperbolic kernel and the reconstruction from `exp(a)` and `exp(-a)`. -/
def Obligations.HyperbolicKernel : Prop :=
  (∀ (c : Config) (r : ℤ),
    (r = 0 → hypParts c r = (one c, 0)) ∧
    (r ≠ 0 → hypParts c r = ((hrot c (kH c) 0 r).1, (hrot c (kH c) 0 r).2.1)) ∧
    (2 * |r| ≤ ln2 c + 2 → |(hypParts c r).2| < (hypParts c r).1)) ∧
  (∀ (c : Config) (a k r ch sh : ℤ), 0 ≤ a → a < tSinh c → reduceLn2 c a = (k, r) → hypParts c r = (ch, sh) →
    ∃ n : ℕ, k = n ∧
      hypSc c a =
        (if a < taylorT c then taylorSinh c a
          else ⌊(((ch + sh) * 2 ^ n - ⌊((ch - sh : ℤ) : ℚ) / 2 ^ n⌋ : ℤ) : ℚ) / 2⌋,
          ⌊(((ch + sh) * 2 ^ n + ⌊((ch - sh : ℤ) : ℚ) / 2 ^ n⌋ : ℤ) : ℚ) / 2⌋) ∧
      0 < (hypSc c a).2)

/-- R175. -/
def Obligations.HyperbolicSine : Prop :=
  ReadsA 0x30#8 .sinh ∧
    ∀ (s : State) (a : Word) (v : ℤ), v = signed s.cfg a →
      AnswersOne (.sinh a) s
        (if v ≥ tSinh s.cfg then maxRaw s.cfg
        else if v ≤ -tSinh s.cfg then minRaw s.cfg
        else clamp s.cfg (if v ≥ 0 then (hypSc s.cfg |v|).1 else -(hypSc s.cfg |v|).1))

/-- R176; the result is never below `ONE`. -/
def Obligations.HyperbolicCosine : Prop :=
  ReadsA 0x31#8 .cosh ∧
    ∀ (s : State) (a : Word) (v : ℤ), v = signed s.cfg a →
      ∃ w : ℤ, AnswersOne (.cosh a) s w ∧ one s.cfg ≤ w ∧
        w = (if |v| ≥ tCosh s.cfg then maxRaw s.cfg
          else clamp s.cfg (max (hypSc s.cfg |v|).2 (one s.cfg)))

/-- R178; the result is never above `ONE` in magnitude. -/
def Obligations.HyperbolicTangent : Prop :=
  ReadsA 0x32#8 .tanh ∧
    ∀ (s : State) (a : Word) (v t : ℤ), v = signed s.cfg a →
      t = min ⌊(((hypSc s.cfg |v|).1 : ℚ) * 2 ^ s.cfg.frac) / ((hypSc s.cfg |v|).2 : ℚ)⌋ (one s.cfg) →
      ∃ w : ℤ, AnswersOne (.tanh a) s w ∧ |w| ≤ one s.cfg ∧
        w = (if v ≥ tSinh s.cfg then one s.cfg
          else if v ≤ -tSinh s.cfg then -one s.cfg
          else if v ≥ 0 then t else -t)

/-- R179. -/
def Obligations.HyperbolicCotangent : Prop :=
  ReadsA 0x38#8 .coth ∧
    ∀ (s : State) (a : Word) (v mag : ℤ), v = signed s.cfg a →
      mag = (if |v| < taylorT s.cfg then
          ⌊(2 : ℚ) ^ (2 * s.cfg.frac) / (|v| : ℤ)⌋ + cothSeries s.cfg |v|
        else ⌊(((hypSc s.cfg |v|).2 : ℚ) * 2 ^ s.cfg.frac) / ((hypSc s.cfg |v|).1 : ℚ)⌋) →
      (v = 0 → AnswersError (.coth a) s .cothZero) ∧
      (v ≠ 0 →
        AnswersOne (.coth a) s
          (if v ≥ tSinh s.cfg then one s.cfg
          else if v ≤ -tSinh s.cfg then -one s.cfg
          else clamp s.cfg (if v > 0 then mag else -mag)))

/-- R181, with the exact floor of the root. -/
def Obligations.InverseHyperbolicSine : Prop :=
  ReadsA 0x34#8 .asinh ∧
    ∀ (s : State) (a : Word) (v m : ℤ), v = signed s.cfg a →
      m = (if |v| < taylorT s.cfg then taylorAsinh s.cfg |v|
        else lnRatio s.cfg (v.natAbs + Nat.sqrt (v.natAbs ^ 2 + 2 ^ (2 * s.cfg.frac))) (2 ^ s.cfg.frac)) →
      AnswersOne (.asinh a) s (if v ≥ 0 then m else -m)

/-- R182, with the exact floor of the root. -/
def Obligations.InverseHyperbolicCosine : Prop :=
  ReadsA 0x35#8 .acosh ∧
    ∀ (s : State) (a : Word) (v : ℤ), v = signed s.cfg a →
      (v < one s.cfg → AnswersError (.acosh a) s .acoshDomain) ∧
      (v ≥ one s.cfg →
        AnswersOne (.acosh a) s
          (lnRatio s.cfg (v.natAbs + Nat.sqrt (v.natAbs ^ 2 - 2 ^ (2 * s.cfg.frac))) (2 ^ s.cfg.frac)))

/-- R183. -/
def Obligations.InverseHyperbolicTangent : Prop :=
  ReadsA 0x36#8 .atanh ∧
    ∀ (s : State) (a : Word) (v h : ℤ), v = signed s.cfg a →
      h = halfLnRatio s.cfg (2 ^ s.cfg.frac + v.natAbs) (2 ^ s.cfg.frac - v.natAbs) →
      (|v| ≥ one s.cfg → AnswersError (.atanh a) s .atanhDomain) ∧
      (|v| < one s.cfg → AnswersOne (.atanh a) s (if v ≥ 0 then h else -h))

/-- R184. -/
def Obligations.InverseHyperbolicCotangent : Prop :=
  ReadsA 0x37#8 .acoth ∧
    ∀ (s : State) (a : Word) (v h : ℤ), v = signed s.cfg a →
      h = halfLnRatio s.cfg (v.natAbs + 2 ^ s.cfg.frac) (v.natAbs - 2 ^ s.cfg.frac) →
      (|v| ≤ one s.cfg → AnswersError (.acoth a) s .acothDomain) ∧
      (|v| > one s.cfg → AnswersOne (.acoth a) s (if v ≥ 0 then h else -h))

/-- The symmetries of R173, R150, R152 and R153. R173's sentence is read for values that are not saturated: at the ends of the
type `SINH` and `COTH` answer `MAX` and `MIN`, which are not negations of each other (log entry 10). -/
def Obligations.FunctionSymmetries : Prop :=
  ∀ (c : Config) (w : Word), signed c w ≠ minRaw c →
    (∀ f ∈ [Instr.tanh, Instr.asinh, Instr.atanh, Instr.acoth, Instr.atan, Instr.asin],
      (respond c (f (negWord c w))).err = (respond c (f w)).err ∧
      signed c (respond c (f (negWord c w))).r0 = -signed c (respond c (f w)).r0) ∧
    (∀ f ∈ [Instr.sinh, Instr.coth],
      minRaw c < signed c (respond c (f w)).r0 → signed c (respond c (f w)).r0 < maxRaw c →
      (respond c (f (negWord c w))).err = (respond c (f w)).err ∧
      signed c (respond c (f (negWord c w))).r0 = -signed c (respond c (f w)).r0) ∧
    respond c (.cosh (negWord c w)) = respond c (.cosh w) ∧
    (signed c w ≠ 0 → (respond c (.acos w)).err = .none →
      signed c (respond c (.acos (negWord c w))).r0 = Machine.pi c - signed c (respond c (.acos w)).r0)

/-! ## Exponential and logarithmic commands (44_exponential_log.md) -/

/-- R200. -/
def Obligations.Exponential : Prop :=
  ReadsA 0x40#8 .exp ∧
    ∀ (s : State) (a : Word) (v k r ch sh : ℤ), v = signed s.cfg a → reduceLn2 s.cfg v = (k, r) →
      hypParts s.cfg r = (ch, sh) →
      AnswersOne (.exp a) s
        (if v ≥ tExpHi s.cfg then maxRaw s.cfg
        else if v < tExpLo s.cfg then 0
        else if k ≥ 0 then clamp s.cfg ((ch + sh) * 2 ^ k.toNat)
        else ⌊((ch + sh : ℤ) : ℚ) / 2 ^ (-k).toNat⌋)

/-- R201. -/
def Obligations.PowerOfTwo : Prop :=
  ReadsA 0x41#8 .pow2 ∧
    ∀ (s : State) (a : Word) (v k f ch sh : ℤ), v = signed s.cfg a →
      k = ⌊(v : ℚ) / 2 ^ s.cfg.frac + 1 / 2⌋ → f = v - k * 2 ^ s.cfg.frac →
      hypParts s.cfg ⌊((f : ℚ) * (ln2 s.cfg : ℚ)) / 2 ^ s.cfg.frac⌋ = (ch, sh) →
      AnswersOne (.pow2 a) s
        (if v ≥ tPow2Hi s.cfg then maxRaw s.cfg
        else if v < tPow2Lo s.cfg then 0
        else if k ≥ 0 then clamp s.cfg ((ch + sh) * 2 ^ k.toNat)
        else ⌊((ch + sh : ℤ) : ℚ) / 2 ^ (-k).toNat⌋)

/-- R202, R203, R204: the logarithm kernel. -/
def Obligations.LogarithmKernel : Prop :=
  ∀ (c : Config) (u v : ℕ), 0 < u → 0 < v → ∃ mu mv : ℕ, ∃ k z : ℤ,
    k = (Nat.log 2 u : ℤ) - Nat.log 2 v ∧
    (2 ^ (c.width - 6) ≤ mu ∧ mu < 2 ^ (c.width - 5)) ∧ (2 ^ (c.width - 6) ≤ mv ∧ mv < 2 ^ (c.width - 5)) ∧
    (Nat.log 2 u ≤ c.width - 6 → mu = u * 2 ^ (c.width - 6 - Nat.log 2 u)) ∧
    (c.width - 6 < Nat.log 2 u → mu = u / 2 ^ (Nat.log 2 u - (c.width - 6))) ∧
    (Nat.log 2 v ≤ c.width - 6 → mv = v * 2 ^ (c.width - 6 - Nat.log 2 v)) ∧
    (c.width - 6 < Nat.log 2 v → mv = v / 2 ^ (Nat.log 2 v - (c.width - 6))) ∧
    3 * |(mu : ℤ) - mv| < mu + mv ∧
    z = (if mu = mv then 0 else (hvec c (mu + mv) ((mu : ℤ) - mv) 0).2.2) ∧
    lnParts c u v = (k, z) ∧
    lnRatio c u v = ⌊((k * ln2E c : ℤ) : ℚ) / 2 ^ (c.width - c.frac)⌋ + 2 * z ∧
    halfLnRatio c u v = ⌊((k * ln2E c : ℤ) : ℚ) / 2 ^ (c.width - c.frac + 1)⌋ + z

/-- R205. -/
def Obligations.NaturalLogarithm : Prop :=
  ReadsA 0x42#8 .ln ∧
    ∀ (s : State) (a : Word) (v : ℤ), v = signed s.cfg a →
      (v ≤ 0 → AnswersError (.ln a) s .logDomain) ∧
      (v > 0 → AnswersOne (.ln a) s (lnRatio s.cfg v.natAbs (2 ^ s.cfg.frac)))

/-- R206; the result is what MUL makes of the LN result and `INV_LN2` (R208). -/
def Obligations.LogarithmToBaseTwo : Prop :=
  ReadsA 0x43#8 .log2 ∧
    ∀ (s : State) (a : Word) (v l : ℤ), v = signed s.cfg a → l = lnRatio s.cfg v.natAbs (2 ^ s.cfg.frac) →
      (v ≤ 0 → AnswersError (.log2 a) s .logDomain) ∧
      (v > 0 →
        AnswersOne (.log2 a) s ⌊((l : ℚ) * (invLn2 s.cfg : ℚ)) / 2 ^ s.cfg.frac⌋ ∧
        respond s.cfg (.log2 a) = respond s.cfg (.mul (respond s.cfg (.ln a)).r0 (word s.cfg (invLn2 s.cfg))))

/-- R207. -/
def Obligations.LogarithmToBaseTen : Prop :=
  ReadsA 0x44#8 .log10 ∧
    ∀ (s : State) (a : Word) (v l : ℤ), v = signed s.cfg a → l = lnRatio s.cfg v.natAbs (2 ^ s.cfg.frac) →
      (v ≤ 0 → AnswersError (.log10 a) s .logDomain) ∧
      (v > 0 → AnswersOne (.log10 a) s ⌊((l : ℚ) * (invLn10 s.cfg : ℚ)) / 2 ^ s.cfg.frac⌋)

/-! ## Refinement stage and SQRT (45_algebraic_refinement.md) -/

/-- R221: the fixed number of Newton steps of R220 reaches the exact floor of the root, for every radicand the commands can
produce (fewer than `2W` bits). -/
def Obligations.NewtonReachesExactRoot : Prop :=
  ∀ (c : Config) (p : ℕ), p < 2 ^ (2 * c.width - 1) → isqrtNr c p = Nat.sqrt p

/-- R225 to R228, in Horner form with every product floored. -/
def Obligations.PolynomialsByHorner : Prop :=
  ∀ (c : Config) (d : ℤ) (m : ℤ → ℤ → ℤ), (∀ x y : ℤ, m x y = ⌊((x : ℚ) * (y : ℚ)) / 2 ^ c.frac⌋) →
    taylorSinh c d = m d (one c + m (m d d) (c1_6 c + m (m d d) (c1_120 c + m (m d d) (c1_5040 c)))) ∧
    taylorAsinh c d = m d (one c - m (m d d) (c1_6 c - m (m d d) (c3_40 c - m (m d d) (c5_112 c)))) ∧
    cotSeries c d =
      m d (c1_3 c + m (m d d) (c1_45 c + m (m d d) (c2_945 c + m (m d d) (c1_4725 c)))) ∧
    cothSeries c d =
      m d (c1_3 c - m (m d d) (c1_45 c - m (m d d) (c2_945 c - m (m d d) (c1_4725 c))))

/-- R222: the exact floor of the square root. -/
def Obligations.SquareRootExactFloor : Prop :=
  ReadsA 0x50#8 .sqrt ∧
    ∀ (s : State) (a : Word) (v : ℤ), v = signed s.cfg a →
      (v < 0 → AnswersError (.sqrt a) s .sqrtDomain) ∧
      (v ≥ 0 → AnswersOne (.sqrt a) s (Nat.sqrt (v.toNat * 2 ^ s.cfg.frac) : ℕ))

/-! ## The constant tables (20_memory.md) -/

/-- R54: each entry of the circular table is the integer nearest to `atan(2^-i) * 2^F`. -/
def Obligations.CircularTableIsNearestArctan : Prop :=
  ∀ c : Config, (ctab c).length = c.frac + 1 ∧
    (ctab c).sum = (match c with | .i16f16 => 114248 | .i32f32 => 7487359022) ∧
    ∀ (i : ℕ) (e : ℤ), (ctab c)[i]? = some e →
      0 < e ∧ e < 2 ^ c.frac ∧ |(e : ℝ) - Real.arctan ((1 / 2) ^ i) * 2 ^ c.frac| < 1 / 2

/-- R53, R55: the schedule, and each value the integer nearest to `atanh(2^-shift) * 2^F`. -/
def Obligations.HyperbolicTableIsNearestArtanh : Prop :=
  ∀ c : Config, (htab c).length = c.frac + 2 ∧
    (htab c).map HEntry.shift =
      (List.range c.frac).flatMap (fun k => if k + 1 ∈ [4, 13, 40, 121] then [k + 1, k + 1] else [k + 1]) ∧
    ((htab c).map HEntry.value).sum = (match c with | .i16f16 => 73279 | .i32f32 => 4802516531) ∧
    ∀ h ∈ htab c, |(h.value : ℝ) - Real.artanh ((1 / 2) ^ h.shift) * 2 ^ c.frac| < 1 / 2

/-- The scalar constants of the ROM are what their definitions say. R56: the gains are those of the iterations executed. R57, R58:
the mathematical constants and the polynomial coefficients are the nearest integers, and `HALFPI_E` has two (one) trailing zero bits.
R59: each threshold is the smallest raw value at which the true function reaches its bound; for `cosh`, which is even, the smallest
that is not negative, as the definition by `acosh` in R59's table says. R60: the small parameters. -/
def Obligations.GainsOfTheIterationsExecuted : Prop :=
  (∀ c : Config,
    NearestTo (kC c) (2 ^ c.frac * ∏ i ∈ Finset.range (c.frac + 1), 1 / √(1 + (1 / 4) ^ i)) ∧
    NearestTo (kH c) (2 ^ c.frac * ((htab c).map fun h => 1 / √(1 - (1 / 4 : ℝ) ^ h.shift)).prod)) ∧
  (∀ c : Config,
    NearestTo (Machine.pi c) (Real.pi * 2 ^ c.frac) ∧
    NearestTo (halfPi c) (Real.pi / 2 * 2 ^ c.frac) ∧
    NearestTo (ln2 c) (Real.log 2 * 2 ^ c.frac) ∧
    NearestTo (invLn2 c) (2 ^ c.frac / Real.log 2) ∧
    NearestTo (invLn10 c) (2 ^ c.frac / Real.log 10) ∧
    NearestTo (halfPiE c) (Real.pi / 2 * 2 ^ c.width) ∧
    NearestTo (ln2E c) (Real.log 2 * 2 ^ c.width)) ∧
  (halfPiE .i16f16 % 8 = 4 ∧ halfPiE .i32f32 % 4 = 2) ∧
  (∀ c : Config,
    NearestTo (c1_3 c) (2 ^ c.frac / 3) ∧ NearestTo (c1_45 c) (2 ^ c.frac / 45) ∧
    NearestTo (c2_945 c) (2 ^ c.frac * (2 / 945)) ∧ NearestTo (c1_4725 c) (2 ^ c.frac / 4725) ∧
    NearestTo (c1_6 c) (2 ^ c.frac / 6) ∧ NearestTo (c1_120 c) (2 ^ c.frac / 120) ∧
    NearestTo (c1_5040 c) (2 ^ c.frac / 5040) ∧ NearestTo (c3_40 c) (2 ^ c.frac * (3 / 40)) ∧
    NearestTo (c5_112 c) (2 ^ c.frac * (5 / 112))) ∧
  (∀ c : Config,
    LeastRaw c (fun x => 2 ^ (c.int - 1) ≤ Real.exp x) (tExpHi c) ∧
    LeastRaw c (fun x => 1 / 2 ^ c.frac ≤ Real.exp x) (tExpLo c) ∧
    LeastRaw c (fun x => 2 ^ (c.int - 1) ≤ (2 : ℝ) ^ x) (tPow2Hi c) ∧
    LeastRaw c (fun x => 1 / 2 ^ c.frac ≤ (2 : ℝ) ^ x) (tPow2Lo c) ∧
    LeastRaw c (fun x => 2 ^ (c.int - 1) ≤ Real.sinh x) (tSinh c) ∧
    LeastRaw c (fun x => 0 ≤ x ∧ 2 ^ (c.int - 1) ≤ Real.cosh x) (tCosh c) ∧
    tSinh c = tCosh c ∧ taylorT c = 2 ^ (c.frac - 3)) ∧
  (∀ c : Config,
    nC c = c.frac + 1 ∧ nH c = c.frac + 2 ∧ extBits c = c.int + c.frac ∧ pNorm c = c.int + c.frac - 6 ∧
      kSqrt c = (match c with | .i16f16 => 6 | .i32f32 => 7))

/-! ## Encoding (30_encoding.md) -/

/-- The decoder and the encoder agree: every well-formed command, at every value its operands can have, is read back from its own
beat; what is read from any beat is well formed; and the beat of a command holds its fields at the bits of R70, where the engine reads
them. -/
def Obligations.DecodeEncodeAgree : Prop :=
  (∀ (c : Config) (i : Instr), i.wellFormed c = true → decodeBeat c (encodeBeat c i) = .command i) ∧
  (∀ (c : Config) (beat : CmdBeat) (i : Instr), decodeBeat c beat = .command i →
    i.wellFormed c = true ∧ beat.extractLsb' (3 * c.width) 8 = i.opcode) ∧
  (∀ (c : Config) (cmd : Command), cmd.wellFormed c = true →
    (cmd.toBeat c).extractLsb' (3 * c.width) 8 = cmd.opc ∧
    bitsAt (cmd.toBeat c) (2 * c.width) c.width = cmd.a ∧
    bitsAt (cmd.toBeat c) c.width c.width = cmd.b ∧
    bitsAt (cmd.toBeat c) 0 c.width = cmd.c ∧
    Command.ofBeat c (cmd.toBeat c) = cmd)

/-- Beats written out from the encodings of R70 and R74, (16,16) and (32,32). -/
def Obligations.DecodesBeatsOfTheSpec : Prop :=
  decodeBeat .i16f16 0x01000180000002400000000000 = .command (.add 0x00018000 0x00024000) ∧
  decodeBeat .i16f16 0x1000009B750000000000008000 = .command (.crot 0x00009B75 0 0x00008000) ∧
  decodeBeat .i16f16 0x25000400000003000000000000 = .command (.atan2 0x00040000 0x00030000) ∧
  decodeBeat .i16f16 0x310002000000000000FFFFFFFF = .command (.cosh 0x00020000) ∧
  decodeBeat .i16f16 0x43000983B80000000000000000 = .command (.log2 0x000983B8) ∧
  decodeBeat .i16f16 0x50FFFF00000000000000000000 = .command (.sqrt 0xFFFF0000) ∧
  decodeBeat .i32f32 0x13000000014000000000000000C00000000000000000000000 =
    .command (.hvec 0x0000000140000000 0x00000000C0000000 0) ∧
  decodeBeat .i16f16 0 = .rejected (.illegalOpcode 0)

/-- R77, R78: exactly these opcodes are illegal, and each is answered `ERR = 10` with zero results. -/
def Obligations.IllegalOpcodesAnswered : Prop :=
  (∀ cmd : Command, decode cmd = .rejected (.illegalOpcode cmd.opc) ↔
    (cmd.opc = 0 ∨ (0x07 ≤ cmd.opc ∧ cmd.opc ≤ 0x0F) ∨ (0x14 ≤ cmd.opc ∧ cmd.opc ≤ 0x1F) ∨
      (0x28 ≤ cmd.opc ∧ cmd.opc ≤ 0x2F) ∨ (0x39 ≤ cmd.opc ∧ cmd.opc ≤ 0x3F) ∨
      (0x45 ≤ cmd.opc ∧ cmd.opc ≤ 0x4F) ∨ 0x51 ≤ cmd.opc)) ∧
  (∀ s : State, s.phase = .busy → s.pins.rst = false → decode s.cmdQ = .rejected (.illegalOpcode s.cmdQ.opc) →
    step s = .next
      { s.tick.noteOffer s.pins with
        rspQ := { err := .illegalOp, r0 := 0, r1 := 0, r2 := 0 }, phase := .resp })

/-- R76: fields that the format does not read do not matter, and fields that it does not write are zero. -/
def Obligations.UnreadFieldsIgnored : Prop :=
  ∀ (c : Config) (cmd : Command) (i : Instr), decode cmd = .command i →
    (∀ b d : Word, i.format = .u1 ∨ i.format = .u2 →
      execCommand c { cmd with b := b, c := d } = execCommand c cmd) ∧
    (∀ d : Word, i.format = .b1 → execCommand c { cmd with c := d } = execCommand c cmd) ∧
    (i.format = .u1 ∨ i.format = .b1 → (execCommand c cmd).r1 = 0 ∧ (execCommand c cmd).r2 = 0) ∧
    (i.format = .u2 → (execCommand c cmd).r2 = 0)

/-! ## Errors (60_exceptions.md) -/

/-- R243, R245, R242: each command fails exactly outside its domain, with its one code and zero results; the codes are 0 to 10. -/
def Obligations.ErrorsExactlyOutsideDomains : Prop :=
  (∀ (c : Config) (i : Instr),
    (respond c i).err =
      (match i with
        | .asin a | .acos a => if |signed c a| > one c then .asinAcosDomain else .none
        | .acosh a => if signed c a < one c then .acoshDomain else .none
        | .atanh a => if |signed c a| ≥ one c then .atanhDomain else .none
        | .acoth a => if |signed c a| ≤ one c then .acothDomain else .none
        | .ln a | .log2 a | .log10 a => if signed c a ≤ 0 then .logDomain else .none
        | .sqrt a => if signed c a < 0 then .sqrtDomain else .none
        | .coth a => if signed c a = 0 then .cothZero else .none
        | .div _ b => if signed c b = 0 then .divByZero else .none
        | .crot a b d | .cvec a b d | .hrot a b d | .hvec a b d =>
          if 2 ^ (c.width - 4) < |signed c a| ∨ 2 ^ (c.width - 4) < |signed c b| ∨ 2 ^ (c.width - 2) < |signed c d|
          then .engineRange else .none
        | .add _ _ | .sub _ _ | .mul _ _ | .shl _ _ | .shr _ _ | .atan2 _ _ | .sin _ | .cos _ | .tan _ | .sincos _
        | .atan _ | .sinh _ | .cosh _ | .tanh _ | .sinhcosh _ | .asinh _ | .exp _ | .pow2 _ => Err.none) ∧
    ((respond c i).err ≠ .none → respond c i = { err := (respond c i).err, r0 := 0, r1 := 0, r2 := 0 })) ∧
  [Err.none, .asinAcosDomain, .acoshDomain, .atanhDomain, .acothDomain, .logDomain, .sqrtDomain, .cothZero, .divByZero,
    .engineRange, .illegalOp].map Err.code = [0, 1, 2, 3, 4, 5, 6, 7, 8, 9, 10] ∧
  ∀ e : Err, (Err.code e).toNat ≤ 10

/-! ## The machine (10_state.md, 70_reset_and_hazards.md) -/

/-- In BUSY without reset the engine neither accepts nor offers (R23), whatever the opcode; and a step there runs the decoded command
(R24, R78). Around the meaning the step moves the host to its next port values and
records a beat that the host is offering meanwhile; nothing else. The fields `inputs` and `offers` are the model's own (log entries 5
and 6). -/
def Obligations.StepRunsDecodedCommand : Prop :=
  (∀ s : State, s.phase = .busy → s.pins.rst = false →
    (outputs s).cmdReady = false ∧ (outputs s).rspValid = false) ∧
  (∀ (s : State) (i : Instr), s.phase = .busy → s.pins.rst = false → decode s.cmdQ = .command i →
    ∃ waiting : List Command,
      waiting =
        (if s.pins.cmdValid = true ∧ Command.ofBeat s.cfg s.pins.cmd ∉ s.offers
          then s.offers ++ [Command.ofBeat s.cfg s.pins.cmd] else s.offers) ∧
      step s = exec i { s with inputs := s.inputs.tail, offers := waiting })

/-- The `accept` step (R22, R24): ready exactly in IDLE without reset; the beat of a host that held it is latched and the phase
is BUSY; a step without an offer changes nothing. What is accepted does not depend on the opcode (R77). The fields `inputs` and
`offers` are the model's own (log entries 5 and 6). -/
def Obligations.AcceptTakesTheOfferedBeat : Prop :=
  ∀ s : State, s.phase = .idle → s.pins.rst = false →
    ((outputs s).cmdReady = true ∧ (outputs s).rspValid = false) ∧
    (s.pins.cmdValid = true → (∀ o ∈ s.offers, o = Command.ofBeat s.cfg s.pins.cmd) →
      step s = .next
        { s with
          inputs := s.inputs.tail, cmdQ := Command.ofBeat s.cfg s.pins.cmd, phase := .busy, offers := [] }) ∧
    (s.pins.cmdValid = false → step s = .next { s with inputs := s.inputs.tail })

/-- The `deliver` step (R22, R24): the response is offered in RESP, held unchanged while the host has no room, transferred in the
step in which it has. The beat on `rsp` holds `ERR`, `R0`, `R1`, `R2` at the bits of R71. The fields `inputs` and `received` are the
model's own (log entry 5). -/
def Obligations.DeliverOrHold : Prop :=
  (∀ (c : Config) (r : Response), Word.fits c r.r0 = true → Word.fits c r.r1 = true → Word.fits c r.r2 = true →
    (r.toBeat c).extractLsb' (3 * c.width) 4 = Err.code r.err ∧
    bitsAt (r.toBeat c) (2 * c.width) c.width = r.r0 ∧
    bitsAt (r.toBeat c) c.width c.width = r.r1 ∧
    bitsAt (r.toBeat c) 0 c.width = r.r2) ∧
  ∀ s : State, s.phase = .resp → s.pins.rst = false →
    ((outputs s).rspValid = true ∧ (outputs s).cmdReady = false ∧ (outputs s).rsp = some (s.rspQ.toBeat s.cfg)) ∧
    (s.pins.rspReady = false → ∃ t, step s = .next t ∧ t.phase = .resp ∧ t.rspQ = s.rspQ ∧ t.cmdQ = s.cmdQ ∧
      t.received = s.received ∧ t.cfg = s.cfg ∧ t.inputs = s.inputs.tail) ∧
    (s.pins.rspReady = true → ∃ t, step s = .next t ∧ t.phase = .idle ∧ t.received = s.received ++ [s.rspQ] ∧
      t.cfg = s.cfg ∧ t.inputs = s.inputs.tail)

/-- Reset (R270, R271): in every phase a step with `rst = 1` leads to IDLE, transfers nothing in either direction, and abandons
the command in flight; the configuration stays (R273). `rsp` absent while nothing is offered, `cfg`, `inputs` and `received` are the
model's own (log entries 1, 5 and 7). -/
def Obligations.ResetAbandonsTheCommand : Prop :=
  ∀ s : State, s.pins.rst = true →
    outputs s = { cmdReady := false, rspValid := false, rsp := none } ∧
    ∃ t, step s = .next t ∧ t.phase = .idle ∧ t.received = s.received ∧ t.cfg = s.cfg ∧ t.inputs = s.inputs.tail

/-- Every step answers a next state, of the same configuration: the engine has no fault, no refusal, no undefined behaviour (R75,
R240, R273). What the host has received stays as it is, but for a delivery, which adds `rsp_q` (R24). The fields `cfg` and
`received` are the model's own (log entries 1 and 5). -/
def Obligations.EveryStepAnswersNext : Prop :=
  ∀ s : State, ∃ t : State, step s = .next t ∧ t.cfg = s.cfg ∧
    (t.received = s.received ∨
      (s.phase = .resp ∧ s.pins.rst = false ∧ s.pins.rspReady = true ∧ t.received = s.received ++ [s.rspQ]))

/-- The invariant `State.good` is kept by every step, from every state that has it: what the engine holds are words of its
configuration, error responses have zero results (R242), and the response on offer is that of the latched command (R24, R25).
The words of a reset state are the model's choice (log entry 3). -/
def Obligations.GoodIsKeptByEveryStep : Prop :=
  ∀ s t : State, s.good = true → step s = .next t → t.good = true

/-- The state after reset has the invariant, in either configuration, and is IDLE (R34). The words it holds and the configuration of
`State.reset` are the model's choice (log entries 1 and 3). -/
def Obligations.ResetIsGood : Prop :=
  (∀ c : Config, (State.resetOf c).good = true ∧ (State.resetOf c).phase = .idle ∧ (State.resetOf c).cfg = c) ∧
  State.reset.good = true

/-- History independence (R25): the response is a function of the configuration and the latched command alone; that the state
carries the configuration is the model's choice (log entry 1). -/
def Obligations.ResponseIndependentOfHistory : Prop :=
  ∀ s s' : State, s.phase = .busy → s'.phase = .busy → s.pins.rst = false → s'.pins.rst = false →
    s.cfg = s'.cfg → s.cmdQ = s'.cmdQ →
    ∃ t t' : State, step s = .next t ∧ step s' = .next t' ∧ t.phase = .resp ∧ t'.phase = .resp ∧ t.rspQ = t'.rspQ

/-- R24, R25, R66, R278: a host that issues any list of commands, waiting as long as it likes before each offer and before each
response is taken, receives exactly their responses, in order, each the pure function of its own command, and the engine ends in
IDLE after a number of steps that the waits fix. One step for `compute`, and the fields `inputs`, `offers` and `received`, are the
model's choice (log entries 4, 5 and 6). -/
def Obligations.CommandsAnsweredInOrder : Prop :=
  ∀ (turns : List (ℕ × Command × ℕ)) (s : State), s.phase = .idle → s.offers = [] →
    (∀ x ∈ turns, x.2.1.wellFormed s.cfg = true) →
    s.inputs = turns.flatMap (fun x => hostTurn s.cfg x.1 x.2.1 x.2.2) →
    ∃ t : State, Sys2Proof.core.run ((turns.map fun x => x.1 + x.2.2 + 3).sum) s = .next t ∧
      t.received = s.received ++ turns.map (fun x => execCommand s.cfg x.2.1) ∧
      t.phase = .idle ∧ t.offers = [] ∧ t.inputs = [] ∧ t.cfg = s.cfg ∧ t.free = s.free
end

