-- ==== Sys2Proof/Laws/State.lean ====
section
/-! SUPPORT. One lemma per field per update of the state, so that no proof unfolds a record update. -/

namespace Sys2Proof.Machine

section Updates
variable (s : State) (r : Response) (cmd : Command) (p : Pins)

@[simp] theorem State.answered_cfg : (s.answered r).cfg = s.cfg := rfl
@[simp] theorem State.answered_phase : (s.answered r).phase = .resp := rfl
@[simp] theorem State.answered_cmdQ : (s.answered r).cmdQ = s.cmdQ := rfl
@[simp] theorem State.answered_rspQ : (s.answered r).rspQ = r := rfl
@[simp] theorem State.answered_inputs : (s.answered r).inputs = s.inputs := rfl
@[simp] theorem State.answered_offers : (s.answered r).offers = s.offers := rfl
@[simp] theorem State.answered_received : (s.answered r).received = s.received := rfl
@[simp] theorem State.answered_free : (s.answered r).free = s.free := rfl

@[simp] theorem State.accept_cfg : (s.accept cmd).cfg = s.cfg := rfl
@[simp] theorem State.accept_phase : (s.accept cmd).phase = .busy := rfl
@[simp] theorem State.accept_cmdQ : (s.accept cmd).cmdQ = cmd := rfl
@[simp] theorem State.accept_rspQ : (s.accept cmd).rspQ = s.rspQ := rfl
@[simp] theorem State.accept_inputs : (s.accept cmd).inputs = s.inputs := rfl
@[simp] theorem State.accept_offers : (s.accept cmd).offers = [] := rfl
@[simp] theorem State.accept_received : (s.accept cmd).received = s.received := rfl
@[simp] theorem State.accept_free : (s.accept cmd).free = s.free := rfl

@[simp] theorem State.deliver_cfg : (s.deliver).cfg = s.cfg := rfl
@[simp] theorem State.deliver_phase : (s.deliver).phase = .idle := rfl
@[simp] theorem State.deliver_cmdQ : (s.deliver).cmdQ = s.cmdQ := rfl
@[simp] theorem State.deliver_rspQ : (s.deliver).rspQ = s.rspQ := rfl
@[simp] theorem State.deliver_inputs : (s.deliver).inputs = s.inputs := rfl
@[simp] theorem State.deliver_offers : (s.deliver).offers = s.offers := rfl
@[simp] theorem State.deliver_received : (s.deliver).received = s.received ++ [s.rspQ] := rfl
@[simp] theorem State.deliver_free : (s.deliver).free = s.free := rfl

@[simp] theorem State.resetEngine_cfg : (s.resetEngine).cfg = s.cfg := rfl
@[simp] theorem State.resetEngine_phase : (s.resetEngine).phase = .idle := rfl
@[simp] theorem State.resetEngine_cmdQ : (s.resetEngine).cmdQ = Command.zero := rfl
@[simp] theorem State.resetEngine_rspQ : (s.resetEngine).rspQ = Response.zero := rfl
@[simp] theorem State.resetEngine_inputs : (s.resetEngine).inputs = s.inputs := rfl
@[simp] theorem State.resetEngine_offers : (s.resetEngine).offers = s.offers := rfl
@[simp] theorem State.resetEngine_received : (s.resetEngine).received = s.received := rfl
@[simp] theorem State.resetEngine_free : (s.resetEngine).free = s.free := rfl

@[simp] theorem State.tick_cfg : (s.tick).cfg = s.cfg := rfl
@[simp] theorem State.tick_phase : (s.tick).phase = s.phase := rfl
@[simp] theorem State.tick_cmdQ : (s.tick).cmdQ = s.cmdQ := rfl
@[simp] theorem State.tick_rspQ : (s.tick).rspQ = s.rspQ := rfl
@[simp] theorem State.tick_inputs : (s.tick).inputs = s.inputs.tail := rfl
@[simp] theorem State.tick_offers : (s.tick).offers = s.offers := rfl
@[simp] theorem State.tick_received : (s.tick).received = s.received := rfl
@[simp] theorem State.tick_free : (s.tick).free = s.free := rfl

@[simp] theorem State.loadCommand_cfg : (s.loadCommand cmd).cfg = s.cfg := rfl
@[simp] theorem State.loadCommand_phase : (s.loadCommand cmd).phase = .busy := rfl
@[simp] theorem State.loadCommand_cmdQ : (s.loadCommand cmd).cmdQ = cmd := rfl
@[simp] theorem State.loadCommand_rspQ : (s.loadCommand cmd).rspQ = s.rspQ := rfl
@[simp] theorem State.loadCommand_offers : (s.loadCommand cmd).offers = s.offers := rfl
@[simp] theorem State.loadCommand_received : (s.loadCommand cmd).received = s.received := rfl
@[simp] theorem State.loadCommand_free : (s.loadCommand cmd).free = s.free := rfl

@[simp] theorem State.noteOffer_cfg : (s.noteOffer p).cfg = s.cfg := by
  unfold State.noteOffer; split
  · dsimp only; split <;> rfl
  · rfl
@[simp] theorem State.noteOffer_phase : (s.noteOffer p).phase = s.phase := by
  unfold State.noteOffer; split
  · dsimp only; split <;> rfl
  · rfl
@[simp] theorem State.noteOffer_cmdQ : (s.noteOffer p).cmdQ = s.cmdQ := by
  unfold State.noteOffer; split
  · dsimp only; split <;> rfl
  · rfl
@[simp] theorem State.noteOffer_rspQ : (s.noteOffer p).rspQ = s.rspQ := by
  unfold State.noteOffer; split
  · dsimp only; split <;> rfl
  · rfl
@[simp] theorem State.noteOffer_inputs : (s.noteOffer p).inputs = s.inputs := by
  unfold State.noteOffer; split
  · dsimp only; split <;> rfl
  · rfl
@[simp] theorem State.noteOffer_received : (s.noteOffer p).received = s.received := by
  unfold State.noteOffer; split
  · dsimp only; split <;> rfl
  · rfl
@[simp] theorem State.noteOffer_free : (s.noteOffer p).free = s.free := by
  unfold State.noteOffer; split
  · dsimp only; split <;> rfl
  · rfl

/-- The beats waiting after an offer that is not accepted. -/
theorem State.noteOffer_offers :
    (s.noteOffer p).offers =
      if p.cmdValid then
        (if Command.ofBeat s.cfg p.cmd ∈ s.offers then s.offers else s.offers ++ [Command.ofBeat s.cfg p.cmd])
      else s.offers := by
  unfold State.noteOffer; split
  · dsimp only; split <;> rfl
  · rfl

@[simp] theorem State.latch_cfg : (s.latch cmd).cfg = s.cfg := by
  unfold State.latch; split <;> rfl
@[simp] theorem State.latch_phase : (s.latch cmd).phase = .busy := by
  unfold State.latch; split <;> rfl
@[simp] theorem State.latch_rspQ : (s.latch cmd).rspQ = s.rspQ := by
  unfold State.latch; split <;> rfl
@[simp] theorem State.latch_inputs : (s.latch cmd).inputs = s.inputs := by
  unfold State.latch; split <;> rfl
@[simp] theorem State.latch_offers : (s.latch cmd).offers = [] := by
  unfold State.latch; split <;> rfl
@[simp] theorem State.latch_received : (s.latch cmd).received = s.received := by
  unfold State.latch; split <;> rfl

@[simp] theorem State.resetOf_cfg (c : Config) : (State.resetOf c).cfg = c := rfl
@[simp] theorem State.resetOf_phase (c : Config) : (State.resetOf c).phase = .idle := rfl

end Updates

end Sys2Proof.Machine
end

