-- ==== Sys2Proof/Laws/Ops.lean ====
section
/-! SUPPORT. What each shared operation can do, said once. -/

namespace Sys2Proof.Machine

/-- `asr` is the floor of the quotient (R13). -/
theorem asr_spec (a : Int) (n : Nat) : asr a n * 2 ^ n ≤ a ∧ a < (asr a n + 1) * 2 ^ n := by
  have h : (0 : Int) < 2 ^ n := by positivity
  unfold asr
  constructor
  · exact Int.ediv_mul_le a h.ne'
  · have := Int.lt_ediv_add_one_mul_self a h
    exact this

/-- Floor division by a positive divisor is Euclidean division (R13). -/
theorem floorDiv_of_pos (a : Int) {b : Int} (hb : 0 < b) : floorDiv a b = a / b := by
  unfold floorDiv
  exact Int.fdiv_eq_ediv_of_nonneg a hb.le

theorem absInt_eq_abs (a : Int) : absInt a = |a| := by
  unfold absInt
  split
  · rw [abs_of_neg (by assumption)]
  · rw [abs_of_nonneg (by omega)]

theorem minRaw_le_maxRaw (c : Config) : minRaw c ≤ maxRaw c := by cases c <;> decide

/-- Saturation is the clamp (R91). -/
theorem sat_eq_clamp (c : Config) (v : Int) : sat c v = clamp c v := by
  have := minRaw_le_maxRaw c
  unfold sat clamp
  split
  · rw [min_eq_left (by omega), max_eq_right this]
  · split
    · rw [min_eq_right (by omega), max_eq_left (by omega)]
    · rw [min_eq_right (by omega), max_eq_right (by omega)]

/-- A saturated value is the raw value of a word, and a value that is one is left alone (R91). -/
theorem sat_spec (c : Config) (v : Int) :
    minRaw c ≤ sat c v ∧ sat c v ≤ maxRaw c ∧ (minRaw c ≤ v → v ≤ maxRaw c → sat c v = v) := by
  have := minRaw_le_maxRaw c
  unfold sat
  split
  · exact ⟨this, le_refl _, fun _ _ => by omega⟩
  · split
    · exact ⟨le_refl _, this, fun _ _ => by omega⟩
    · exact ⟨by omega, by omega, fun _ _ => rfl⟩

theorem width_le (c : Config) : c.width ≤ 64 := by cases c <;> decide

theorem width_pos (c : Config) : 0 < c.width := by cases c <;> decide

/-- A result word is a word of its configuration (R15). -/
theorem word_fits (c : Config) (v : Int) : Word.fits c (word c v) = true := by
  unfold Word.fits word
  simp only [decide_eq_true_eq, BitVec.toNat_setWidth]
  exact lt_of_le_of_lt (Nat.mod_le _ _) (BitVec.isLt _)

/-- The raw value of a word lies in `[MIN, MAX]` (R12). -/
theorem signed_spec (c : Config) (w : Word) : minRaw c ≤ signed c w ∧ signed c w ≤ maxRaw c := by
  have h1 := BitVec.le_toInt (w.setWidth c.width)
  have h2 := BitVec.toInt_lt (x := w.setWidth c.width)
  unfold signed minRaw maxRaw
  exact ⟨h1, by omega⟩

/-- The raw value of `word(v)` is `v`, for `v` in `[MIN, MAX]` (R12). -/
theorem signed_word (c : Config) (v : Int) (h1 : minRaw c ≤ v) (h2 : v ≤ maxRaw c) : signed c (word c v) = v := by
  have hw := width_le c
  have hp := width_pos c
  unfold signed word
  rw [BitVec.setWidth_setWidth_of_le _ hw, BitVec.setWidth_eq, BitVec.toInt_ofInt]
  unfold minRaw at h1
  unfold maxRaw at h2
  apply Int.bmod_eq_of_le_mul_two
  · push_cast
    rw [show c.width = c.width - 1 + 1 by omega, pow_succ]
    omega
  · push_cast
    rw [show c.width = c.width - 1 + 1 by omega, pow_succ]
    omega

/-- A word is the word of its raw value (R12). -/
theorem word_signed (c : Config) (w : Word) (h : Word.fits c w = true) : word c (signed c w) = w := by
  unfold Word.fits at h
  unfold word signed
  rw [BitVec.ofInt_toInt]
  apply BitVec.eq_of_toNat_eq
  simp only [BitVec.toNat_setWidth]
  have := of_decide_eq_true h
  rw [Nat.mod_eq_of_lt this]
  exact Nat.mod_eq_of_lt w.isLt

/-- The bound of rule R112, as a proposition. -/
theorem outsideEngine_eq_false (c : Config) (x y z : Int) :
    outsideEngine c x y z = false ↔ InEngineBound c x y z := by
  unfold outsideEngine InEngineBound
  simp only [absInt_eq_abs, Bool.or_eq_false_iff, decide_eq_false_iff_not, not_lt, gt_iff_lt, and_assoc]

/-- `bitlen(u)` (R13). -/
theorem bitlen_spec (u : Nat) (h : u ≠ 0) : 2 ^ (bitlen u - 1) ≤ u ∧ u < 2 ^ bitlen u := by
  unfold bitlen
  rw [if_neg h]
  exact ⟨by simpa using Nat.log2_self_le h, Nat.lt_log2_self⟩

@[simp] theorem bitlen_zero : bitlen 0 = 0 := rfl

/-- What a meaning can do: it answers a next state that differs in `rsp_q` and `phase` alone, and the response is the pure
function of configuration and command (R25). -/
theorem exec_eq_answered (i : Instr) (s : State) : exec i s = .next (s.answered (respond s.cfg i)) := by
  cases i <;> rfl

/-- What a step can do: the cases of rule R24, of reset (R270), and of a step in which nothing is transferred. -/
theorem step_cases (s : State) :
    (s.pins.rst = true ∧ step s = .next (s.tick.noteOffer s.pins).resetEngine) ∨
    (s.pins.rst = false ∧ s.phase = .idle ∧ s.pins.cmdValid = true ∧
      step s = .next (s.tick.latch (Command.ofBeat s.cfg s.pins.cmd))) ∨
    (s.pins.rst = false ∧ s.phase = .idle ∧ s.pins.cmdValid = false ∧ step s = .next s.tick) ∨
    (s.pins.rst = false ∧ s.phase = .busy ∧
      step s = .next ((s.tick.noteOffer s.pins).answered (execCommand s.cfg s.cmdQ))) ∨
    (s.pins.rst = false ∧ s.phase = .resp ∧ s.pins.rspReady = true ∧
      step s = .next (s.tick.noteOffer s.pins).deliver) ∨
    (s.pins.rst = false ∧ s.phase = .resp ∧ s.pins.rspReady = false ∧
      step s = .next (s.tick.noteOffer s.pins)) := by
  unfold step cycle
  cases hr : s.pins.rst
  · cases hp : s.phase
    · cases hv : s.pins.cmdValid <;> simp [hr, hv]
    · cases hd : decode s.cmdQ <;>
        simp [hr, hd, execCommand, exec_eq_answered, illegalCommand, State.answer]
    · cases hv : s.pins.rspReady <;> simp [hr, hv]
  · simp [hr]

/-- For a property that holds upwards, a threshold is the least raw value once it has the property and its predecessor has not. -/
theorem leastRaw_of_pred {c : Config} {p : ℝ → Prop} {t : Int} (hup : ∀ x y : ℝ, x ≤ y → p x → p y)
    (hlo : minRaw c ≤ t) (hhi : t ≤ maxRaw c) (ht : p ((t : ℝ) / 2 ^ c.frac))
    (hpred : ¬ p (((t - 1 : Int) : ℝ) / 2 ^ c.frac)) : LeastRaw c p t := by
  refine ⟨⟨hlo, hhi, ht⟩, fun x hx => ?_⟩
  by_contra hlt
  have hle : x ≤ t - 1 := by omega
  exact hpred (hup _ _ (by gcongr) hx.2.2)

end Sys2Proof.Machine
end

