-- ==== Sys2Proof/Laws/PerInstr.lean ====
section
/-! SUPPORT. A statement about every command, one lemma per constructor. -/

namespace Sys2Proof.Laws

/-- Decoding the fields that the encoder writes gives the command back: no operand is dropped and no opcode confused. -/
def EncodeDecode.Statement (i : Instr) : Prop := decode (encode i) = .command i ∧ (encode i).opc = i.opcode

theorem EncodeDecode.add (a b : Word) : EncodeDecode.Statement (.add a b) := ⟨rfl, rfl⟩
theorem EncodeDecode.sub (a b : Word) : EncodeDecode.Statement (.sub a b) := ⟨rfl, rfl⟩
theorem EncodeDecode.mul (a b : Word) : EncodeDecode.Statement (.mul a b) := ⟨rfl, rfl⟩
theorem EncodeDecode.div (a b : Word) : EncodeDecode.Statement (.div a b) := ⟨rfl, rfl⟩
theorem EncodeDecode.shl (a b : Word) : EncodeDecode.Statement (.shl a b) := ⟨rfl, rfl⟩
theorem EncodeDecode.shr (a b : Word) : EncodeDecode.Statement (.shr a b) := ⟨rfl, rfl⟩
theorem EncodeDecode.crot (a b c : Word) : EncodeDecode.Statement (.crot a b c) := ⟨rfl, rfl⟩
theorem EncodeDecode.cvec (a b c : Word) : EncodeDecode.Statement (.cvec a b c) := ⟨rfl, rfl⟩
theorem EncodeDecode.hrot (a b c : Word) : EncodeDecode.Statement (.hrot a b c) := ⟨rfl, rfl⟩
theorem EncodeDecode.hvec (a b c : Word) : EncodeDecode.Statement (.hvec a b c) := ⟨rfl, rfl⟩
theorem EncodeDecode.sin (a : Word) : EncodeDecode.Statement (.sin a) := ⟨rfl, rfl⟩
theorem EncodeDecode.cos (a : Word) : EncodeDecode.Statement (.cos a) := ⟨rfl, rfl⟩
theorem EncodeDecode.tan (a : Word) : EncodeDecode.Statement (.tan a) := ⟨rfl, rfl⟩
theorem EncodeDecode.sincos (a : Word) : EncodeDecode.Statement (.sincos a) := ⟨rfl, rfl⟩
theorem EncodeDecode.atan (a : Word) : EncodeDecode.Statement (.atan a) := ⟨rfl, rfl⟩
theorem EncodeDecode.atan2 (a b : Word) : EncodeDecode.Statement (.atan2 a b) := ⟨rfl, rfl⟩
theorem EncodeDecode.asin (a : Word) : EncodeDecode.Statement (.asin a) := ⟨rfl, rfl⟩
theorem EncodeDecode.acos (a : Word) : EncodeDecode.Statement (.acos a) := ⟨rfl, rfl⟩
theorem EncodeDecode.sinh (a : Word) : EncodeDecode.Statement (.sinh a) := ⟨rfl, rfl⟩
theorem EncodeDecode.cosh (a : Word) : EncodeDecode.Statement (.cosh a) := ⟨rfl, rfl⟩
theorem EncodeDecode.tanh (a : Word) : EncodeDecode.Statement (.tanh a) := ⟨rfl, rfl⟩
theorem EncodeDecode.sinhcosh (a : Word) : EncodeDecode.Statement (.sinhcosh a) := ⟨rfl, rfl⟩
theorem EncodeDecode.asinh (a : Word) : EncodeDecode.Statement (.asinh a) := ⟨rfl, rfl⟩
theorem EncodeDecode.acosh (a : Word) : EncodeDecode.Statement (.acosh a) := ⟨rfl, rfl⟩
theorem EncodeDecode.atanh (a : Word) : EncodeDecode.Statement (.atanh a) := ⟨rfl, rfl⟩
theorem EncodeDecode.acoth (a : Word) : EncodeDecode.Statement (.acoth a) := ⟨rfl, rfl⟩
theorem EncodeDecode.coth (a : Word) : EncodeDecode.Statement (.coth a) := ⟨rfl, rfl⟩
theorem EncodeDecode.exp (a : Word) : EncodeDecode.Statement (.exp a) := ⟨rfl, rfl⟩
theorem EncodeDecode.pow2 (a : Word) : EncodeDecode.Statement (.pow2 a) := ⟨rfl, rfl⟩
theorem EncodeDecode.ln (a : Word) : EncodeDecode.Statement (.ln a) := ⟨rfl, rfl⟩
theorem EncodeDecode.log2 (a : Word) : EncodeDecode.Statement (.log2 a) := ⟨rfl, rfl⟩
theorem EncodeDecode.log10 (a : Word) : EncodeDecode.Statement (.log10 a) := ⟨rfl, rfl⟩
theorem EncodeDecode.sqrt (a : Word) : EncodeDecode.Statement (.sqrt a) := ⟨rfl, rfl⟩

end Sys2Proof.Laws
end

