-- ==== Sys2Proof/Tests/Slice0.lean ====
section
/-! SUPPORT. The model's own tests: ill-formed terms refused, decoding of words written out from rules R70 and R74, one step per
command on vectors of spec/95_test_vectors.md and spec/96_test_vectors_w64.md, the handshake and reset, and for each statement
of Certificates/Slice0/Obligations.lean a witness that meets its hypotheses. -/

namespace Sys2Proof.Tests

open Sys2Proof Sys2Proof.Machine

-- The tests are compiled one after another: each in a thread of its own asks for more stack space than the sandbox gives.
set_option Elab.async false

/-! ## Well-formedness: one ill-formed term for each check -/

/-- On (16,16) an operand is a word of 32 bits: bit 32 is refused in `A`, in `B` and in `C`, and in each field of a beat. -/
theorem test_wellFormed_refuses :
    Instr.wellFormed .i16f16 (.sin 0x100000000) = false ∧
    Instr.wellFormed .i16f16 (.add 0x100000000 0) = false ∧
    Instr.wellFormed .i16f16 (.add 0 0x100000000) = false ∧
    Instr.wellFormed .i16f16 (.crot 0x100000000 0 0) = false ∧
    Instr.wellFormed .i16f16 (.crot 0 0x100000000 0) = false ∧
    Instr.wellFormed .i16f16 (.crot 0 0 0x100000000) = false ∧
    Command.wellFormed .i16f16 ⟨1, 0x100000000, 0, 0⟩ = false ∧
    Command.wellFormed .i16f16 ⟨1, 0, 0x100000000, 0⟩ = false ∧
    Command.wellFormed .i16f16 ⟨1, 0, 0, 0x100000000⟩ = false := by decide

/-- Every pattern of 32 bits is an operand on (16,16), every pattern of 64 bits on (32,32) (R75). -/
theorem test_wellFormed_accepts :
    Instr.wellFormed .i16f16 (.crot 0xFFFFFFFF 0x80000000 0) = true ∧
    Instr.wellFormed .i32f32 (.crot 0xFFFFFFFFFFFFFFFF 0x100000000 0) = true := by decide

/-- No third configuration (R9). -/
theorem test_config_refuses :
    Config.ofPair 8 8 = none ∧ Config.ofPair 16 32 = none ∧ Config.ofPair 16 16 = some .i16f16 ∧
      Config.ofPair 32 32 = some .i32f32 := by decide

/-! ## Decoding: beats written out from `OPC[8] A[32] B[32] C[32]` (R70) with the opcodes of R74 -/

theorem test_decode_primitives :
    decodeBeat .i16f16 0x01_12345678_9ABCDEF0_0F1E2D3C = .command (.add 0x12345678 0x9ABCDEF0) ∧
    decodeBeat .i16f16 0x02_12345678_9ABCDEF0_0F1E2D3C = .command (.sub 0x12345678 0x9ABCDEF0) ∧
    decodeBeat .i16f16 0x03_12345678_9ABCDEF0_0F1E2D3C = .command (.mul 0x12345678 0x9ABCDEF0) ∧
    decodeBeat .i16f16 0x04_12345678_9ABCDEF0_0F1E2D3C = .command (.div 0x12345678 0x9ABCDEF0) ∧
    decodeBeat .i16f16 0x05_12345678_9ABCDEF0_0F1E2D3C = .command (.shl 0x12345678 0x9ABCDEF0) ∧
    decodeBeat .i16f16 0x06_12345678_9ABCDEF0_0F1E2D3C = .command (.shr 0x12345678 0x9ABCDEF0) := by decide +kernel

theorem test_decode_engine :
    decodeBeat .i16f16 0x10_12345678_9ABCDEF0_0F1E2D3C = .command (.crot 0x12345678 0x9ABCDEF0 0x0F1E2D3C) ∧
    decodeBeat .i16f16 0x11_12345678_9ABCDEF0_0F1E2D3C = .command (.cvec 0x12345678 0x9ABCDEF0 0x0F1E2D3C) ∧
    decodeBeat .i16f16 0x12_12345678_9ABCDEF0_0F1E2D3C = .command (.hrot 0x12345678 0x9ABCDEF0 0x0F1E2D3C) ∧
    decodeBeat .i16f16 0x13_12345678_9ABCDEF0_0F1E2D3C = .command (.hvec 0x12345678 0x9ABCDEF0 0x0F1E2D3C) := by
  decide +kernel

theorem test_decode_trigonometric :
    decodeBeat .i16f16 0x20_12345678_9ABCDEF0_0F1E2D3C = .command (.sin 0x12345678) ∧
    decodeBeat .i16f16 0x21_12345678_9ABCDEF0_0F1E2D3C = .command (.cos 0x12345678) ∧
    decodeBeat .i16f16 0x22_12345678_9ABCDEF0_0F1E2D3C = .command (.tan 0x12345678) ∧
    decodeBeat .i16f16 0x23_12345678_9ABCDEF0_0F1E2D3C = .command (.sincos 0x12345678) ∧
    decodeBeat .i16f16 0x24_12345678_9ABCDEF0_0F1E2D3C = .command (.atan 0x12345678) ∧
    decodeBeat .i16f16 0x25_12345678_9ABCDEF0_0F1E2D3C = .command (.atan2 0x12345678 0x9ABCDEF0) ∧
    decodeBeat .i16f16 0x26_12345678_9ABCDEF0_0F1E2D3C = .command (.asin 0x12345678) ∧
    decodeBeat .i16f16 0x27_12345678_9ABCDEF0_0F1E2D3C = .command (.acos 0x12345678) := by decide +kernel

theorem test_decode_hyperbolic :
    decodeBeat .i16f16 0x30_12345678_9ABCDEF0_0F1E2D3C = .command (.sinh 0x12345678) ∧
    decodeBeat .i16f16 0x31_12345678_9ABCDEF0_0F1E2D3C = .command (.cosh 0x12345678) ∧
    decodeBeat .i16f16 0x32_12345678_9ABCDEF0_0F1E2D3C = .command (.tanh 0x12345678) ∧
    decodeBeat .i16f16 0x33_12345678_9ABCDEF0_0F1E2D3C = .command (.sinhcosh 0x12345678) ∧
    decodeBeat .i16f16 0x34_12345678_9ABCDEF0_0F1E2D3C = .command (.asinh 0x12345678) ∧
    decodeBeat .i16f16 0x35_12345678_9ABCDEF0_0F1E2D3C = .command (.acosh 0x12345678) ∧
    decodeBeat .i16f16 0x36_12345678_9ABCDEF0_0F1E2D3C = .command (.atanh 0x12345678) ∧
    decodeBeat .i16f16 0x37_12345678_9ABCDEF0_0F1E2D3C = .command (.acoth 0x12345678) ∧
    decodeBeat .i16f16 0x38_12345678_9ABCDEF0_0F1E2D3C = .command (.coth 0x12345678) := by decide +kernel

theorem test_decode_exponential :
    decodeBeat .i16f16 0x40_12345678_9ABCDEF0_0F1E2D3C = .command (.exp 0x12345678) ∧
    decodeBeat .i16f16 0x41_12345678_9ABCDEF0_0F1E2D3C = .command (.pow2 0x12345678) ∧
    decodeBeat .i16f16 0x42_12345678_9ABCDEF0_0F1E2D3C = .command (.ln 0x12345678) ∧
    decodeBeat .i16f16 0x43_12345678_9ABCDEF0_0F1E2D3C = .command (.log2 0x12345678) ∧
    decodeBeat .i16f16 0x44_12345678_9ABCDEF0_0F1E2D3C = .command (.log10 0x12345678) ∧
    decodeBeat .i16f16 0x50_12345678_9ABCDEF0_0F1E2D3C = .command (.sqrt 0x12345678) := by decide +kernel

/-- A beat of (32,32): `OPC[8] A[64] B[64] C[64]`. -/
theorem test_decode_wide :
    decodeBeat .i32f32 0x12_0123456789ABCDEF_FEDCBA9876543210_0F1E2D3C4B5A6978 =
      .command (.hrot 0x0123456789ABCDEF 0xFEDCBA9876543210 0x0F1E2D3C4B5A6978) := by decide +kernel

/-- The ends of each gap of the opcode table are illegal (R77). -/
theorem test_decode_illegal :
    ([0x00, 0x07, 0x0F, 0x14, 0x1F, 0x28, 0x2F, 0x39, 0x3F, 0x45, 0x4F, 0x51, 0x80, 0xFF] : List (BitVec 8)).all
      (fun o => decode ⟨o, 1, 1, 1⟩ = .rejected (.illegalOpcode o)) = true := by decide +kernel

/-- Table words: the opcode byte in bits 7 to 0, `A` in bits 39 to 8, `B` in bits 71 to 40 (log entry 9). -/
theorem test_decodeTableWord :
    decodeTableWord 8 0x20 = some (.sin 0) ∧
    decodeTableWord 104 0x0000000000024000_00018000_01 = some (.add 0x18000 0x24000) ∧
    decodeTableWord 104 0x00000003_00000002_00000001_13 = some (.hvec 1 2 3) ∧
    decodeTableWord 8 0x07 = none := by decide +kernel

/-! ## Commands: one step each. Source of the beats: the tables of sections 2 and 3 of spec/95_test_vectors.md (narrow) and
spec/96_test_vectors_w64.md (wide). A beat is `OPC A B C`, a response beat `ERR R0 R1 R2`. -/

/-- The engine of configuration `c` after it has accepted the beat. -/
def busy (c : Config) (beat : CmdBeat) : State :=
  { State.resetOf c with phase := .busy, cmdQ := Command.ofBeat c beat }

/-- The response beat that the next step puts in `rsp_q`. -/
def answerTo (c : Config) (beat : CmdBeat) : Option RspBeat :=
  match step (busy c beat) with
  | .next t => some (t.rspQ.toBeat c)
  | .fault _ => none
  | .refused _ => none

theorem test_add_narrow : answerTo .i16f16 0x01_FFFF8000_FFFFC000_00000000 =
    some 0x0_FFFF4000_00000000_00000000 := by decide +kernel

theorem test_add_wide : answerTo .i32f32 0x01_FFFFFFFF80000000_FFFFFFFFC0000000_0000000000000000 =
    some 0x0_FFFFFFFF40000000_0000000000000000_0000000000000000 := by decide +kernel

theorem test_sub_narrow : answerTo .i16f16 0x02_00000000_80000000_00000000 =
    some 0x0_7FFFFFFF_00000000_00000000 := by decide +kernel

theorem test_sub_wide : answerTo .i32f32 0x02_0000000180000000_0000000240000000_0000000000000000 =
    some 0x0_FFFFFFFF40000000_0000000000000000_0000000000000000 := by decide +kernel

theorem test_mul_narrow : answerTo .i16f16 0x03_FFFE8000_00020000_00000000 =
    some 0x0_FFFD0000_00000000_00000000 := by decide +kernel

theorem test_mul_wide : answerTo .i32f32 0x03_00000001A61298E5_00000001A61298E5_0000000000000000 =
    some 0x0_00000002B7E1516C_0000000000000000_0000000000000000 := by decide +kernel

theorem test_div_narrow : answerTo .i16f16 0x04_FFFFFFFF_00000002_00000000 =
    some 0x0_FFFF8000_00000000_00000000 := by decide +kernel

theorem test_div_wide : answerTo .i32f32 0x04_0000000100000000_0000000000000000_0000000000000000 =
    some 0x8_0000000000000000_0000000000000000_0000000000000000 := by decide +kernel

theorem test_shl_narrow : answerTo .i16f16 0x05_FFFF0000_0000000F_00000000 =
    some 0x0_80000000_00000000_00000000 := by decide +kernel

theorem test_shl_wide : answerTo .i32f32 0x05_0000000000000001_000000000000003E_0000000000000000 =
    some 0x0_4000000000000000_0000000000000000_0000000000000000 := by decide +kernel

theorem test_shr_narrow : answerTo .i16f16 0x06_80000000_FFFFFFFF_00000000 =
    some 0x0_FFFFFFFF_00000000_00000000 := by decide +kernel

theorem test_shr_wide : answerTo .i32f32 0x06_FFFFFFFF00000000_0000000000000001_0000000000000000 =
    some 0x0_FFFFFFFF80000000_0000000000000000_0000000000000000 := by decide +kernel

theorem test_crot_narrow : answerTo .i16f16 0x10_F0000000_F0000000_C0000000 =
    some 0x0_EA908DF5_1E7AA8F0_C001BE48 := by decide +kernel

theorem test_crot_wide : answerTo .i32f32 0x10_1000000000000001_0000000000000000_0000000000000000 =
    some 0x9_0000000000000000_0000000000000000_0000000000000000 := by decide +kernel

theorem test_cvec_narrow : answerTo .i16f16 0x11_10000000_10000000_00000000 =
    some 0x0_25430DE8_FFFFFF59_0000C910 := by decide +kernel

theorem test_cvec_wide : answerTo .i32f32 0x11_1000000000000001_0000000000000000_0000000000000000 =
    some 0x9_0000000000000000_0000000000000000_0000000000000000 := by decide +kernel

theorem test_hrot_narrow : answerTo .i16f16 0x12_0001351F_00000000_FFFF8000 =
    some 0x0_000120AC_FFFF7A99_FFFFFFFF := by decide +kernel

theorem test_hrot_wide : answerTo .i32f32 0x12_0000000000000000_0000000000000000_BFFFFFFFFFFFFFFF =
    some 0x9_0000000000000000_0000000000000000_0000000000000000 := by decide +kernel

theorem test_hvec_narrow : answerTo .i16f16 0x13_10000000_08000000_00000000 =
    some 0x0_0B79AE19_000006E8_00008C9F := by decide +kernel

theorem test_hvec_wide : answerTo .i32f32 0x13_1000000000000000_1000000000000001_0000000000000000 =
    some 0x9_0000000000000000_0000000000000000_0000000000000000 := by decide +kernel

theorem test_sin_narrow : answerTo .i16f16 0x20_FFFF0000_00000000_00000000 =
    some 0x0_FFFF2897_00000000_00000000 := by decide +kernel

theorem test_sin_wide : answerTo .i32f32 0x20_FFFFFFFF00000000_0000000000000000_0000000000000000 =
    some 0x0_FFFFFFFF28955B8A_0000000000000000_0000000000000000 := by decide +kernel

theorem test_cos_narrow : answerTo .i16f16 0x21_FFFF0000_00000000_00000000 =
    some 0x0_00008A53_00000000_00000000 := by decide +kernel

theorem test_cos_wide : answerTo .i32f32 0x21_8000000000000000_0000000000000000_0000000000000000 =
    some 0x0_000000003CE185A4_0000000000000000_0000000000000000 := by decide +kernel

theorem test_tan_narrow : answerTo .i16f16 0x22_00019228_00000000_00000000 =
    some 0x0_E12069B7_00000000_00000000 := by decide +kernel

theorem test_tan_wide : answerTo .i32f32 0x22_00000001921FB542_0000000000000000_0000000000000000 =
    some 0x0_7139487D850FC7FC_0000000000000000_0000000000000000 := by decide +kernel

theorem test_sincos_narrow : answerTo .i16f16 0x23_FFFF0000_00000000_00000000 =
    some 0x0_FFFF2897_00008A53_00000000 := by decide +kernel

theorem test_sincos_wide : answerTo .i32f32 0x23_FFFFFFFF00000000_0000000000000000_0000000000000000 =
    some 0x0_FFFFFFFF28955B8A_000000008A514081_0000000000000000 := by decide +kernel

theorem test_atan_narrow : answerTo .i16f16 0x24_80000000_00000000_00000000 =
    some 0x0_FFFE6DE2_00000000_00000000 := by decide +kernel

theorem test_atan_wide : answerTo .i32f32 0x24_8000000000000000_0000000000000000_0000000000000000 =
    some 0x0_FFFFFFFE6DE04ABC_0000000000000000_0000000000000000 := by decide +kernel

theorem test_atan2_narrow : answerTo .i16f16 0x25_FFFF0000_FFFF0000_00000000 =
    some 0x0_FFFDA4D1_00000000_00000000 := by decide +kernel

theorem test_atan2_wide : answerTo .i32f32 0x25_FFFFFFFF00000000_0000000000000000_0000000000000000 =
    some 0x0_FFFFFFFE6DE04ABC_0000000000000000_0000000000000000 := by decide +kernel

theorem test_asin_narrow : answerTo .i16f16 0x26_FFFF0000_00000000_00000000 =
    some 0x0_FFFE6DE0_00000000_00000000 := by decide +kernel

theorem test_asin_wide : answerTo .i32f32 0x26_0000000100000001_0000000000000000_0000000000000000 =
    some 0x1_0000000000000000_0000000000000000_0000000000000000 := by decide +kernel

theorem test_acos_narrow : answerTo .i16f16 0x27_FFFF8000_00000000_00000000 =
    some 0x0_00021829_00000000_00000000 := by decide +kernel

theorem test_acos_wide : answerTo .i32f32 0x27_0000000100000001_0000000000000000_0000000000000000 =
    some 0x1_0000000000000000_0000000000000000_0000000000000000 := by decide +kernel

theorem test_sinh_narrow : answerTo .i16f16 0x30_FFFF0000_00000000_00000000 =
    some 0x0_FFFED327_00000000_00000000 := by decide +kernel

theorem test_sinh_wide : answerTo .i32f32 0x30_FFFFFFFF00000000_0000000000000000_0000000000000000 =
    some 0x0_FFFFFFFED32603B5_0000000000000000_0000000000000000 := by decide +kernel

theorem test_cosh_narrow : answerTo .i16f16 0x31_FFFF0000_00000000_00000000 =
    some 0x0_00018B07_00000000_00000000 := by decide +kernel

theorem test_cosh_wide : answerTo .i32f32 0x31_FFFFFFFF00000000_0000000000000000_0000000000000000 =
    some 0x0_000000018B075523_0000000000000000_0000000000000000 := by decide +kernel

theorem test_tanh_narrow : answerTo .i16f16 0x32_FFFF0000_00000000_00000000 =
    some 0x0_FFFF3D09_00000000_00000000 := by decide +kernel

theorem test_tanh_wide : answerTo .i32f32 0x32_FFFFFFFF00000000_0000000000000000_0000000000000000 =
    some 0x0_FFFFFFFF3D082A57_0000000000000000_0000000000000000 := by decide +kernel

theorem test_sinhcosh_narrow : answerTo .i16f16 0x33_FFFF0000_00000000_00000000 =
    some 0x0_FFFED327_00018B07_00000000 := by decide +kernel

theorem test_sinhcosh_wide : answerTo .i32f32 0x33_FFFFFFFF00000000_0000000000000000_0000000000000000 =
    some 0x0_FFFFFFFED32603B5_000000018B075523_0000000000000000 := by decide +kernel

theorem test_asinh_narrow : answerTo .i16f16 0x34_FFFF0000_00000000_00000000 =
    some 0x0_FFFF1E5C_00000000_00000000 := by decide +kernel

theorem test_asinh_wide : answerTo .i32f32 0x34_8000000000000000_0000000000000000_0000000000000000 =
    some 0x0_FFFFFFE9D1BD0106_0000000000000000_0000000000000000 := by decide +kernel

theorem test_acosh_narrow : answerTo .i16f16 0x35_03E80000_00000000_00000000 =
    some 0x0_000799D6_00000000_00000000 := by decide +kernel

theorem test_acosh_wide : answerTo .i32f32 0x35_FFFFFFFF00000000_0000000000000000_0000000000000000 =
    some 0x2_0000000000000000_0000000000000000_0000000000000000 := by decide +kernel

theorem test_atanh_narrow : answerTo .i16f16 0x36_FFFF8000_00000000_00000000 =
    some 0x0_FFFF7360_00000000_00000000 := by decide +kernel

theorem test_atanh_wide : answerTo .i32f32 0x36_0000000100000000_0000000000000000_0000000000000000 =
    some 0x3_0000000000000000_0000000000000000_0000000000000000 := by decide +kernel

theorem test_acoth_narrow : answerTo .i16f16 0x37_FFFE0000_00000000_00000000 =
    some 0x0_FFFF7360_00000000_00000000 := by decide +kernel

theorem test_acoth_wide : answerTo .i32f32 0x37_0000000100000000_0000000000000000_0000000000000000 =
    some 0x4_0000000000000000_0000000000000000_0000000000000000 := by decide +kernel

theorem test_coth_narrow : answerTo .i16f16 0x38_FFFF0000_00000000_00000000 =
    some 0x0_FFFEAFDD_00000000_00000000 := by decide +kernel

theorem test_coth_wide : answerTo .i32f32 0x38_0000000000000000_0000000000000000_0000000000000000 =
    some 0x7_0000000000000000_0000000000000000_0000000000000000 := by decide +kernel

theorem test_exp_narrow : answerTo .i16f16 0x40_FFFF0000_00000000_00000000 =
    some 0x0_00005E2D_00000000_00000000 := by decide +kernel

theorem test_exp_wide : answerTo .i32f32 0x40_FFFFFFFB00000000_0000000000000000_0000000000000000 =
    some 0x0_0000000001B993FD_0000000000000000_0000000000000000 := by decide +kernel

theorem test_pow2_narrow : answerTo .i16f16 0x41_FFFF8000_00000000_00000000 =
    some 0x0_0000B508_00000000_00000000 := by decide +kernel

theorem test_pow2_wide : answerTo .i32f32 0x41_FFFFFFFF80000000_0000000000000000_0000000000000000 =
    some 0x0_00000000B504F335_0000000000000000_0000000000000000 := by decide +kernel

theorem test_ln_narrow : answerTo .i16f16 0x42_00008000_00000000_00000000 =
    some 0x0_FFFF4E8D_00000000_00000000 := by decide +kernel

theorem test_ln_wide : answerTo .i32f32 0x42_0000000000000000_0000000000000000_0000000000000000 =
    some 0x5_0000000000000000_0000000000000000_0000000000000000 := by decide +kernel

theorem test_log2_narrow : answerTo .i16f16 0x43_03E80000_00000000_00000000 =
    some 0x0_0009F73C_00000000_00000000 := by decide +kernel

theorem test_log2_wide : answerTo .i32f32 0x43_0000000000000000_0000000000000000_0000000000000000 =
    some 0x5_0000000000000000_0000000000000000_0000000000000000 := by decide +kernel

theorem test_log10_narrow : answerTo .i16f16 0x44_7FFFFFFF_00000000_00000000 =
    some 0x0_000483F5_00000000_00000000 := by decide +kernel

theorem test_log10_wide : answerTo .i32f32 0x44_0000000000000000_0000000000000000_0000000000000000 =
    some 0x5_0000000000000000_0000000000000000_0000000000000000 := by decide +kernel

theorem test_sqrt_narrow : answerTo .i16f16 0x50_7FFFFFFF_00000000_00000000 =
    some 0x0_00B504F3_00000000_00000000 := by decide +kernel

theorem test_sqrt_wide : answerTo .i32f32 0x50_FFFFFFFFFFFFFFFF_0000000000000000_0000000000000000 =
    some 0x6_0000000000000000_0000000000000000_0000000000000000 := by decide +kernel

/-- An opcode outside the table is answered `ERR = 10` (section 2.14 of spec/95_test_vectors.md). -/
theorem test_illegal_opcode : answerTo .i16f16 0x45_00010000_00010000_00010000 =
    some 0xA_00000000_00000000_00000000 := by decide +kernel

/-! ## Tables, handshake, reset -/

/-- The shifts listed in `HTAB` are the schedule of rule R53, and the table sums are those of rules R54 and R55. -/
theorem test_tables :
    (htab .i16f16).map HEntry.shift = schedule .i16f16 ∧ (htab .i32f32).map HEntry.shift = schedule .i32f32 ∧
    (ctab .i16f16).sum = 114248 ∧ (ctab .i32f32).sum = 7487359022 ∧
    ((htab .i16f16).map HEntry.value).sum = 73279 ∧ ((htab .i32f32).map HEntry.value).sum = 4802516531 := by
  decide +kernel

/-- The host drives a command on the port for one step. -/
def offering (beat : CmdBeat) : List Pins := [{ Pins.idle with cmdValid := true, cmd := beat }]

/-- The observable part of a next state. -/
def after (s : State) : Option (Phase × Command × Response × List Response) :=
  match step s with
  | .next t => some (t.phase, t.cmdQ, t.rspQ, t.received)
  | .fault _ => none
  | .refused _ => none

/-- IDLE and an offer: the beat is latched (R24). -/
theorem test_accept :
    after { State.reset with inputs := offering 0x01_00018000_00024000_00000000 } =
      some (.busy, ⟨1, 0x18000, 0x24000, 0⟩, Response.zero, []) := by decide +kernel

/-- IDLE and no offer: nothing happens (R22). -/
theorem test_idle_waits : after State.reset = some (.idle, Command.zero, Response.zero, []) := by decide +kernel

/-- A table word placed for the next step is computed by it: `ADD` of 1.5 and 2.25 (R94's example), and an illegal opcode. -/
theorem test_withFetchWord :
    after (State.reset.withFetchWord 104 0x00000000_00024000_00018000_01) =
      some (.resp, ⟨1, 0x18000, 0x24000, 0⟩, ⟨.none, 0x3C000, 0, 0⟩, []) ∧
    after (State.reset.withFetchWord 8 0x07) = some (.resp, ⟨7, 0, 0, 0⟩, ⟨.illegalOp, 0, 0, 0⟩, []) := by decide +kernel

/-- RESP and a host with room: the response is transferred (R24). -/
theorem test_deliver :
    after { busy .i16f16 0x45_00000000_00000000_00000000 with
        phase := .resp, rspQ := Response.raise .illegalOp, inputs := [{ Pins.idle with rspReady := true }] } =
      some (.idle, ⟨0x45, 0, 0, 0⟩, Response.raise .illegalOp, [Response.raise .illegalOp]) := by decide +kernel

/-- RESP and a host without room: the response stays on offer (R22). -/
theorem test_response_held :
    after { State.reset with phase := .resp, rspQ := Response.raise .illegalOp } =
      some (.resp, Command.zero, Response.raise .illegalOp, []) := by decide +kernel

/-- Reset in RESP: IDLE, and the response is lost although the host had room (R270, R271). -/
theorem test_reset_withdraws :
    after { State.reset with
        phase := .resp, rspQ := Response.raise .illegalOp, inputs := [⟨true, false, 0, true⟩] } =
      some (.idle, Command.zero, Response.zero, []) := by decide +kernel

/-- Program P2 of section 5 of spec/95_test_vectors.md begins `EXP #1`; two of its statements, as a script (R83 to R85). -/
theorem test_script :
    (runScript State.reset [] [⟨some "t", "EXP", [.const .one]⟩, ⟨none, "LN", [.ref "t" 0]⟩]).map
      (fun r => (r.1, r.2.r0)) = [(some "t", 0x0002B7E0), (none, 0x0000FFFC)] := by decide +kernel

/-- A response recorded without a label is found under no name, and the earliest of two under one label is found (log entry 11). -/
theorem test_records_find :
    Records.find [(none, Response.zero), (some "t", Response.zero), (some "t", Response.raise .illegalOp)] "t" =
      some Response.zero ∧
    Records.find [(none, Response.zero)] "t" = none := by decide

/-- `label.Rk` of a label that names nothing is rejected (log entry 11). -/
theorem test_unknown_label : assemble .i16f16 [] ⟨none, "LN", [.ref "t" 0]⟩ = none := by decide +kernel

/-! ## Witnesses

`witness_<Name>` shows concrete values that meet the hypotheses of `Obligations.<Name>`, clause by clause, at the ends of the ranges
where a clause has one. `ReadsA`, `ReadsAB` and `ReadsABC` ask for a beat with the opcode; `beatOf` is one. Where a hypothesis
only names a value (`v = signed s.cfg a`), the witness chooses the operand. -/

/-- A beat with opcode `o` and three different operands. -/
def beatOf (o : BitVec 8) : Command := ⟨o, 0x18000, 0x24000, 7⟩

/-- The raw value of a word on (16,16). -/
abbrev sw (a : Word) : ℤ := signed .i16f16 a

theorem witness_AddSaturates : (beatOf 0x01).opc = 0x01#8 := rfl
theorem witness_SubSaturates : (beatOf 0x02).opc = 0x02#8 := rfl
theorem witness_MulFloorsAndSaturates : (beatOf 0x03).opc = 0x03#8 := rfl

theorem witness_DivFloorsAndSaturates :
    (beatOf 0x04).opc = 0x04#8 ∧ sw 0 = 0 ∧ sw 1 ≠ 0 ∧ sw 0xFFFFFFFF ≠ 0 ∧ sw 0x80000000 ≠ 0 := by decide +kernel

theorem witness_ShlSaturatesExactly : (beatOf 0x05).opc = 0x05#8 := rfl
theorem witness_ShrFloors : (beatOf 0x06).opc = 0x06#8 := rfl

theorem witness_PrimitiveIdentities :
    Word.fits .i16f16 0xFFFFFFFF = true ∧
    (2 : ℤ) ^ (Config.i16f16.frac + 0) ≤ maxRaw .i16f16 ∧ (2 : ℤ) ^ (Config.i16f16.frac + 14) ≤ maxRaw .i16f16 ∧
    0 ≤ Config.i16f16.frac ∧ 16 ≤ Config.i16f16.frac ∧
    (30 < 2 ^ Config.i16f16.width ∧ minRaw .i16f16 ≤ sw 1 * 2 ^ 30 ∧ sw 1 * 2 ^ 30 ≤ maxRaw .i16f16) ∧
    (31 < 2 ^ Config.i16f16.width ∧ minRaw .i16f16 ≤ sw 0xFFFFFFFF * 2 ^ 31 ∧ sw 0xFFFFFFFF * 2 ^ 31 ≤ maxRaw .i16f16) := by
  decide +kernel

/-- Operands on the bound of R112, and one beyond it in each of the three. -/
theorem engine_bound_ends :
    InEngineBound .i16f16 (sw 0x10000000) (sw 0xF0000000) (sw 0x40000000) ∧
    InEngineBound .i16f16 (sw 0xF0000000) (sw 0x10000000) (sw 0xC0000000) ∧
    ¬ InEngineBound .i16f16 (sw 0x10000001) (sw 0) (sw 0) ∧ ¬ InEngineBound .i16f16 (sw 0xEFFFFFFF) (sw 0) (sw 0) ∧
    ¬ InEngineBound .i16f16 (sw 0) (sw 0x10000001) (sw 0) ∧ ¬ InEngineBound .i16f16 (sw 0) (sw 0xEFFFFFFF) (sw 0) ∧
    ¬ InEngineBound .i16f16 (sw 0) (sw 0) (sw 0x40000001) ∧ ¬ InEngineBound .i16f16 (sw 0) (sw 0) (sw 0xBFFFFFFF) := by
  unfold InEngineBound
  decide +kernel

theorem witness_CrotRunsOrRefusesRange :
    (beatOf 0x10).opc = 0x10#8 ∧ InEngineBound .i16f16 (sw 0x10000000) (sw 0xF0000000) (sw 0x40000000) ∧
      ¬ InEngineBound .i16f16 (sw 0x10000001) (sw 0) (sw 0) :=
  ⟨rfl, engine_bound_ends.1, engine_bound_ends.2.2.1⟩

theorem witness_CvecRunsOrRefusesRange :
    (beatOf 0x11).opc = 0x11#8 ∧ InEngineBound .i16f16 (sw 0x10000000) (sw 0xF0000000) (sw 0x40000000) ∧
      ¬ InEngineBound .i16f16 (sw 0x10000001) (sw 0) (sw 0) :=
  ⟨rfl, engine_bound_ends.1, engine_bound_ends.2.2.1⟩

theorem witness_HrotRunsOrRefusesRange :
    (beatOf 0x12).opc = 0x12#8 ∧ InEngineBound .i16f16 (sw 0x10000000) (sw 0xF0000000) (sw 0x40000000) ∧
      ¬ InEngineBound .i16f16 (sw 0x10000001) (sw 0) (sw 0) :=
  ⟨rfl, engine_bound_ends.1, engine_bound_ends.2.2.1⟩

theorem witness_HvecRunsOrRefusesRange :
    (beatOf 0x13).opc = 0x13#8 ∧ InEngineBound .i16f16 (sw 0x10000000) (sw 0xF0000000) (sw 0x40000000) ∧
      ¬ InEngineBound .i16f16 (sw 0x10000001) (sw 0) (sw 0) :=
  ⟨rfl, engine_bound_ends.1, engine_bound_ends.2.2.1⟩

theorem witness_EngineNeverOverflows : InEngineBound .i16f16 (sw 0x10000000) (sw 0xF0000000) (sw 0x40000000) :=
  engine_bound_ends.1

/-- `r` at 0, at both neighbours of 0, and at the largest and smallest value the last clause speaks of. -/
theorem witness_CircularKernelClamped :
    (0 : ℤ) = 0 ∧ (1 : ℤ) ≠ 0 ∧ (-1 : ℤ) ≠ 0 ∧
    2 * |(51473 : ℤ)| ≤ halfPi .i16f16 + 2 ∧ 2 * |(-51473 : ℤ)| ≤ halfPi .i16f16 + 2 ∧
    ¬ 2 * |(51474 : ℤ)| ≤ halfPi .i16f16 + 2 := by decide +kernel

/-- Operands in each of the four quadrants; the equations name the values of the two functions, so each has a solution. -/
theorem witness_SineAndCosine :
    (beatOf 0x20).opc = 0x20#8 ∧ (beatOf 0x21).opc = 0x21#8 ∧
    (reduceQuadrant .i16f16 (sw 0x8000)).1 = 0 ∧ (reduceQuadrant .i16f16 (sw 0x18000)).1 = 1 ∧
    (reduceQuadrant .i16f16 (sw 0x30000)).1 = 2 ∧ (reduceQuadrant .i16f16 (sw 0xFFFE8000)).1 = 3 ∧
    (∃ q rE cs sn : ℤ, reduceQuadrant .i16f16 (sw 0x8000) = (q, rE) ∧
      circParts .i16f16 ⌊(rE : ℚ) / 2 ^ (Config.i16f16.width - Config.i16f16.frac)⌋ = (cs, sn)) := by
  exact ⟨rfl, rfl, by decide +kernel, by decide +kernel, by decide +kernel, by decide +kernel, _, _, _, _, rfl, rfl⟩

theorem witness_PairCommandsAgree : (beatOf 0x23).opc = 0x23#8 ∧ (beatOf 0x33).opc = 0x33#8 := ⟨rfl, rfl⟩

/-- Even and odd quadrants; in the odd ones a remainder near 0 of either sign, and remainders at and above the threshold. -/
theorem witness_TangentByQuadrant :
    (beatOf 0x22).opc = 0x22#8 ∧
    (reduceQuadrant .i16f16 (sw 0x8000)).1 = 0 ∧ (reduceQuadrant .i16f16 (sw 0x30000)).1 = 2 ∧
    ((reduceQuadrant .i16f16 (sw 0x19220)).1 = 1 ∧ 0 < (reduceQuadrant .i16f16 (sw 0x19220)).2 ∧
      |(reduceQuadrant .i16f16 (sw 0x19220)).2| < 2 ^ (Config.i16f16.width - 3)) ∧
    ((reduceQuadrant .i16f16 (sw 0x1921F)).1 = 1 ∧ (reduceQuadrant .i16f16 (sw 0x1921F)).2 < 0) ∧
    ((reduceQuadrant .i16f16 (sw 0xFFFE8000)).1 = 3 ∧
      |(reduceQuadrant .i16f16 (sw 0xFFFE8000)).2| < 2 ^ (Config.i16f16.width - 3)) ∧
    ((reduceQuadrant .i16f16 (sw 0x14000)).1 = 1 ∧
      ¬ |(reduceQuadrant .i16f16 (sw 0x14000)).2| < 2 ^ (Config.i16f16.width - 3)) ∧
    (∃ q rE cs sn : ℤ, reduceQuadrant .i16f16 (sw 0x19220) = (q, rE) ∧
      circParts .i16f16 ⌊(rE : ℚ) / 2 ^ (Config.i16f16.width - Config.i16f16.frac)⌋ = (cs, sn)) := by
  refine ⟨rfl, by decide +kernel, by decide +kernel, by decide +kernel, by decide +kernel, by decide +kernel,
    by decide +kernel, _, _, _, _, rfl, rfl⟩

/-- Magnitudes whose leading one is below, at and above `PNORM`; operands of each sign and zero. -/
theorem witness_ArcTangentOfTwo :
    (beatOf 0x25).opc = 0x25#8 ∧
    (0 < 1 ∧ Nat.log 2 (max 1 1) ≤ Config.i16f16.width - 6) ∧
    Nat.log 2 (max 1 (2 ^ 26)) ≤ Config.i16f16.width - 6 ∧
    Config.i16f16.width - 6 < Nat.log 2 (max 1 (2 ^ 27)) ∧
    (sw 0 = 0 ∧ sw 1 > 0 ∧ sw 0xFFFFFFFF < 0) := by
  refine ⟨rfl, ⟨by decide, by decide +kernel⟩, ?_, ?_, by decide +kernel⟩
  · have h : max 1 (2 ^ 26) = 2 ^ 26 := by norm_num
    rw [h, Nat.log_pow (by norm_num)]; decide
  · have h : max 1 (2 ^ 27) = 2 ^ 27 := by norm_num
    rw [h, Nat.log_pow (by norm_num)]; decide

theorem witness_ArcTangent : (beatOf 0x24).opc = 0x24#8 := rfl

/-- The operand 1.0 and the one above it; -1.0 and the one below it. -/
theorem witness_ArcSine :
    (beatOf 0x26).opc = 0x26#8 ∧ |sw 0x10001| > one .i16f16 ∧ |sw 0xFFFEFFFF| > one .i16f16 ∧
      |sw 0x10000| ≤ one .i16f16 ∧ |sw 0xFFFF0000| ≤ one .i16f16 := by decide +kernel

theorem witness_ArcCosine :
    (beatOf 0x27).opc = 0x27#8 ∧ |sw 0x10001| > one .i16f16 ∧ |sw 0xFFFEFFFF| > one .i16f16 ∧
      |sw 0x10000| ≤ one .i16f16 ∧ |sw 0xFFFF0000| ≤ one .i16f16 := by decide +kernel

/-- `r` at 0, beside it and at the end of its range; `a` at 0, on both sides of `TAYLOR_T`, and at the largest value below the
threshold, with the values that the two equations name. -/
theorem witness_HyperbolicKernel :
    ((1 : ℤ) ≠ 0 ∧ 2 * |(22714 : ℤ)| ≤ ln2 .i16f16 + 2 ∧ 2 * |(-22714 : ℤ)| ≤ ln2 .i16f16 + 2) ∧
    ((0 : ℤ) ≤ 0 ∧ 0 < tSinh .i16f16 ∧ reduceLn2 .i16f16 0 = (0, 0) ∧ hypParts .i16f16 0 = (65536, 0)) ∧
    ((0 : ℤ) ≤ 8191 ∧ 8191 < tSinh .i16f16 ∧ 8191 < taylorT .i16f16) ∧
    ((0 : ℤ) ≤ 8192 ∧ 8192 < tSinh .i16f16 ∧ ¬ 8192 < taylorT .i16f16 ∧ reduceLn2 .i16f16 8192 = (0, 8192)) ∧
    ((0 : ℤ) ≤ 726817 ∧ 726817 < tSinh .i16f16 ∧ reduceLn2 .i16f16 726817 = (16, -1)) := by decide +kernel

theorem witness_HyperbolicSine :
    (beatOf 0x30).opc = 0x30#8 ∧ sw 0xB1722 ≥ tSinh .i16f16 ∧ ¬ sw 0xB1721 ≥ tSinh .i16f16 ∧
      sw 0xFFF4E8DE ≤ -tSinh .i16f16 ∧ ¬ sw 0xFFF4E8DF ≤ -tSinh .i16f16 ∧ sw 0 ≥ 0 ∧ ¬ sw 0xFFFFFFFF ≥ 0 := by decide +kernel

theorem witness_HyperbolicCosine :
    (beatOf 0x31).opc = 0x31#8 ∧ |sw 0xB1722| ≥ tCosh .i16f16 ∧ ¬ |sw 0xB1721| ≥ tCosh .i16f16 := by decide +kernel

/-- An operand and the quotient the second hypothesis names for it. -/
theorem witness_HyperbolicTangent :
    (beatOf 0x32).opc = 0x32#8 ∧
    (sw 0x10000 = 65536 ∧ fdiv .i16f16 (hypSc .i16f16 |sw 0x10000|).1 (hypSc .i16f16 |sw 0x10000|).2 = 49911) ∧
    sw 0xB1722 ≥ tSinh .i16f16 ∧ sw 0xFFF4E8DE ≤ -tSinh .i16f16 := by decide +kernel

theorem witness_HyperbolicCotangent :
    (beatOf 0x38).opc = 0x38#8 ∧ sw 0 = 0 ∧ sw 1 ≠ 0 ∧ sw 0xFFFFFFFF ≠ 0 ∧
    |sw 0x1FFF| < taylorT .i16f16 ∧ ¬ |sw 0x2000| < taylorT .i16f16 ∧
    sw 0xB1722 ≥ tSinh .i16f16 ∧ sw 0xFFF4E8DE ≤ -tSinh .i16f16 := by decide +kernel

theorem witness_InverseHyperbolicSine :
    (beatOf 0x34).opc = 0x34#8 ∧ |sw 0x1FFF| < taylorT .i16f16 ∧ ¬ |sw 0x2000| < taylorT .i16f16 ∧
      sw 0 ≥ 0 ∧ ¬ sw 0xFFFFFFFF ≥ 0 := by decide +kernel

theorem witness_InverseHyperbolicCosine :
    (beatOf 0x35).opc = 0x35#8 ∧ sw 0xFFFF < one .i16f16 ∧ sw 0x10000 ≥ one .i16f16 := by decide +kernel

theorem witness_InverseHyperbolicTangent :
    (beatOf 0x36).opc = 0x36#8 ∧ |sw 0x10000| ≥ one .i16f16 ∧ |sw 0xFFFF0000| ≥ one .i16f16 ∧
      |sw 0xFFFF| < one .i16f16 ∧ |sw 0xFFFF0001| < one .i16f16 := by decide +kernel

theorem witness_InverseHyperbolicCotangent :
    (beatOf 0x37).opc = 0x37#8 ∧ |sw 0x10000| ≤ one .i16f16 ∧ |sw 0xFFFF0000| ≤ one .i16f16 ∧
      |sw 0x10001| > one .i16f16 ∧ |sw 0xFFFEFFFF| > one .i16f16 := by decide +kernel

/-- A word that is not the least; results of SINH and COTH strictly inside the type; an ACOS that answers. -/
theorem witness_FunctionSymmetries :
    sw 0x8000 ≠ minRaw .i16f16 ∧ sw 0x80000001 ≠ minRaw .i16f16 ∧
    (∀ f ∈ [Instr.sinh, Instr.coth],
      minRaw .i16f16 < sw (respond .i16f16 (f 0x8000)).r0 ∧ sw (respond .i16f16 (f 0x8000)).r0 < maxRaw .i16f16) ∧
    (sw 0x8000 ≠ 0 ∧ (respond .i16f16 (.acos 0x8000)).err = .none) := by
  refine ⟨by decide +kernel, by decide +kernel, ?_, by decide +kernel, by decide +kernel⟩
  intro f hf
  simp only [List.mem_cons, List.not_mem_nil, or_false] at hf
  rcases hf with rfl | rfl <;> decide +kernel

/-- Operands in each branch, with the values the equations name for the operand 1.0 and for -1.0. -/
theorem witness_Exponential :
    (beatOf 0x40).opc = 0x40#8 ∧
    (reduceLn2 .i16f16 (sw 0x10000) = (1, 20109) ∧ hypParts .i16f16 20109 = (68646, 20426)) ∧
    (reduceLn2 .i16f16 (sw 0xFFFF0000)).1 = -1 ∧
    sw 0x000A65B0 ≥ tExpHi .i16f16 ∧ ¬ sw 0x000A65AF ≥ tExpHi .i16f16 ∧
    sw 0xFFF4E8DE < tExpLo .i16f16 ∧ ¬ sw 0xFFF4E8DF < tExpLo .i16f16 := by decide +kernel

theorem witness_PowerOfTwo :
    (beatOf 0x41).opc = 0x41#8 ∧
    (sw 0x18000 = 98304 ∧ ⌊((98304 : ℤ) : ℚ) / 2 ^ 16 + 1 / 2⌋ = 2 ∧ (98304 : ℤ) - 2 * 2 ^ 16 = -32768 ∧
      ⌊(((-32768 : ℤ) : ℚ) * ((ln2 .i16f16 : ℤ) : ℚ)) / 2 ^ 16⌋ = -22713 ∧ ∃ ch sh : ℤ, hypParts .i16f16 (-22713) = (ch, sh)) ∧
    sw 0xF0000 ≥ tPow2Hi .i16f16 ∧ ¬ sw 0xEFFFF ≥ tPow2Hi .i16f16 ∧
    sw 0xFFEFFFFF < tPow2Lo .i16f16 ∧ ¬ sw 0xFFF00000 < tPow2Lo .i16f16 := by
  refine ⟨rfl, ⟨by decide +kernel, ?_, by norm_num, ?_, _, _, rfl⟩, by decide +kernel⟩
  · rw [Int.floor_eq_iff]; norm_num
  · rw [Int.floor_eq_iff]; norm_num [ln2]

/-- Arguments whose leading one is below, at and above `PNORM`. -/
theorem witness_LogarithmKernel :
    0 < 1 ∧ Nat.log 2 1 ≤ Config.i16f16.width - 6 ∧ Nat.log 2 (2 ^ 26) ≤ Config.i16f16.width - 6 ∧
      Config.i16f16.width - 6 < Nat.log 2 (2 ^ 27) := by
  refine ⟨by decide, by norm_num, ?_, ?_⟩
  · rw [Nat.log_pow (by norm_num)]; decide
  · rw [Nat.log_pow (by norm_num)]; decide

theorem witness_NaturalLogarithm :
    (beatOf 0x42).opc = 0x42#8 ∧ sw 0 ≤ 0 ∧ sw 0x80000000 ≤ 0 ∧ sw 1 > 0 ∧ sw 0x7FFFFFFF > 0 := by decide +kernel

theorem witness_LogarithmToBaseTwo :
    (beatOf 0x43).opc = 0x43#8 ∧ sw 0 ≤ 0 ∧ sw 0x80000000 ≤ 0 ∧ sw 1 > 0 ∧ sw 0x7FFFFFFF > 0 := by decide +kernel

theorem witness_LogarithmToBaseTen :
    (beatOf 0x44).opc = 0x44#8 ∧ sw 0 ≤ 0 ∧ sw 0x80000000 ≤ 0 ∧ sw 1 > 0 ∧ sw 0x7FFFFFFF > 0 := by decide +kernel

theorem witness_NewtonReachesExactRoot :
    0 < 2 ^ (2 * Config.i16f16.width - 1) ∧ 2 ^ 63 - 1 < 2 ^ (2 * Config.i16f16.width - 1) ∧
      2 ^ 127 - 1 < 2 ^ (2 * Config.i32f32.width - 1) := by decide +kernel

/-- The function that the hypothesis describes. -/
theorem witness_PolynomialsByHorner :
    ∃ m : ℤ → ℤ → ℤ, ∀ x y : ℤ, m x y = ⌊((x : ℚ) * (y : ℚ)) / 2 ^ Config.i16f16.frac⌋ :=
  ⟨fun x y => ⌊((x : ℚ) * (y : ℚ)) / 2 ^ Config.i16f16.frac⌋, fun _ _ => rfl⟩

theorem witness_SquareRootExactFloor :
    (beatOf 0x50).opc = 0x50#8 ∧ sw 0xFFFFFFFF < 0 ∧ sw 0x80000000 < 0 ∧ sw 0 ≥ 0 ∧ sw 0x7FFFFFFF ≥ 0 := by decide +kernel

theorem witness_CircularTableIsNearestArctan :
    (ctab .i16f16)[0]? = some 51472 ∧ (ctab .i16f16)[16]? = some 1 := by decide +kernel

theorem witness_HyperbolicTableIsNearestArtanh : (⟨1, 35999⟩ : HEntry) ∈ htab .i16f16 := by decide +kernel

theorem witness_DecodeEncodeAgree :
    Instr.wellFormed .i16f16 (.crot 0xFFFFFFFF 0x80000000 1) = true ∧
    Command.wellFormed .i16f16 ⟨0xFF, 0xFFFFFFFF, 0x80000000, 0⟩ = true ∧
    decodeBeat .i16f16 0x01_00018000_00024000_00000007 = .command (.add 0x18000 0x24000) := by decide +kernel

/-- An engine computing an illegal opcode, no reset on the port; the ends of each range of illegal opcodes. -/
theorem witness_IllegalOpcodesAnswered :
    (let s := busy .i16f16 0x45_00000000_00000000_00000000
     s.phase = .busy ∧ s.pins.rst = false ∧ decode s.cmdQ = .rejected (.illegalOpcode s.cmdQ.opc)) ∧
    ([0x00, 0x07, 0x0F, 0x14, 0x1F, 0x28, 0x2F, 0x39, 0x3F, 0x45, 0x4F, 0x51, 0xFF] : List (BitVec 8)).all
      (fun o => decode (beatOf o) = .rejected (.illegalOpcode o)) = true := by decide +kernel

/-- A command of each format. -/
theorem witness_UnreadFieldsIgnored :
    (decode (beatOf 0x20) = .command (.sin 0x18000) ∧ (Instr.sin 0x18000).format = .u1) ∧
    (decode (beatOf 0x23) = .command (.sincos 0x18000) ∧ (Instr.sincos 0x18000).format = .u2) ∧
    (decode (beatOf 0x01) = .command (.add 0x18000 0x24000) ∧ (Instr.add 0x18000 0x24000).format = .b1) := by
  decide +kernel

/-- A command that fails. -/
theorem witness_ErrorsExactlyOutsideDomains : (respond .i16f16 (.asin 0x10001)).err ≠ .none := by decide +kernel

/-- An engine computing SIN, and one computing an illegal opcode (first clause only). -/
theorem witness_StepRunsDecodedCommand :
    (let s := busy .i16f16 0x20_00008000_00000000_00000000
     s.phase = .busy ∧ s.pins.rst = false ∧ decode s.cmdQ = .command (.sin 0x8000)) ∧
    (let s := busy .i16f16 0x45_00000000_00000000_00000000
     s.phase = .busy ∧ s.pins.rst = false ∧ decode s.cmdQ = .rejected (.illegalOpcode 0x45)) := by decide +kernel

/-- An offer with nothing waiting, the same beat waiting already, and no offer. -/
theorem witness_AcceptTakesTheOfferedBeat :
    (let s := { State.reset with inputs := offering 0x01_00018000_00024000_00000000 }
     s.phase = .idle ∧ s.pins.rst = false ∧ s.pins.cmdValid = true ∧
       ∀ o ∈ s.offers, o = Command.ofBeat s.cfg s.pins.cmd) ∧
    (let s := { State.reset with
        inputs := offering 0x01_00018000_00024000_00000000, offers := [⟨1, 0x18000, 0x24000, 0⟩] }
     s.phase = .idle ∧ s.pins.rst = false ∧ s.pins.cmdValid = true ∧
       ∀ o ∈ s.offers, o = Command.ofBeat s.cfg s.pins.cmd) ∧
    (State.reset.phase = .idle ∧ State.reset.pins.rst = false ∧ State.reset.pins.cmdValid = false) := by decide +kernel

/-- The largest and smallest words of (16,16) in a response; a host without room, and one with room. -/
theorem witness_DeliverOrHold :
    (Word.fits .i16f16 0xFFFFFFFF = true ∧ Word.fits .i16f16 0x80000000 = true ∧ Word.fits .i16f16 0 = true) ∧
    (let s := { State.reset with phase := .resp }
     s.phase = .resp ∧ s.pins.rst = false ∧ s.pins.rspReady = false) ∧
    (let s := { State.reset with phase := .resp, inputs := [{ Pins.idle with rspReady := true }] }
     s.phase = .resp ∧ s.pins.rst = false ∧ s.pins.rspReady = true) := by decide +kernel

theorem witness_ResetAbandonsTheCommand :
    ({ busy .i16f16 0x20_00008000_00000000_00000000 with inputs := [⟨true, true, 1, true⟩] } : State).pins.rst = true := rfl

/-- A step that delivers a response, and a step that leaves what the host has received as it is. -/
theorem witness_EveryStepAnswersNext :
    ∃ t, step { State.reset with phase := .resp, inputs := [{ Pins.idle with rspReady := true }] } = .next t ∧
      t.received = [] ++ [Response.zero] := ⟨_, rfl, rfl⟩

theorem witness_EveryStepAnswersNext_quiet : ∃ t, step State.reset = .next t ∧ t.received = State.reset.received :=
  ⟨_, rfl, rfl⟩

/-- A good state in the middle of a command, and the next state of it. -/
theorem witness_GoodIsKeptByEveryStep :
    (busy .i16f16 0x20_00008000_00000000_00000000).good = true ∧
    ∃ t, step (busy .i16f16 0x20_00008000_00000000_00000000) = .next t := ⟨by decide +kernel, _, rfl⟩

/-- Two different states with the same latched command. -/
theorem witness_ResponseIndependentOfHistory :
    let s := busy .i16f16 0x20_00008000_00000000_00000000
    let s' := { s with rspQ := Response.raise .illegalOp, received := [Response.zero] }
    s.phase = .busy ∧ s'.phase = .busy ∧ s.pins.rst = false ∧ s'.pins.rst = false ∧ s.cfg = s'.cfg ∧ s.cmdQ = s'.cmdQ ∧
      s ≠ s' := by decide +kernel

/-- Two commands, the second after a wait, its response taken after a wait. -/
theorem witness_CommandsAnsweredInOrder :
    let turns : List (ℕ × Command × ℕ) := [(0, ⟨1, 0x18000, 0x24000, 0⟩, 0), (2, ⟨0x45, 0, 0, 0⟩, 1)]
    let s : State := { State.reset with
      inputs := turns.flatMap (fun x : ℕ × Command × ℕ => hostTurn .i16f16 x.1 x.2.1 x.2.2) }
    s.phase = .idle ∧ s.offers = [] ∧ (∀ x ∈ turns, x.2.1.wellFormed s.cfg = true) ∧
      s.inputs = turns.flatMap (fun x => hostTurn s.cfg x.1 x.2.1 x.2.2) := by decide +kernel

end Sys2Proof.Tests
end

section
/-! SUPPORT. Facts of the state, the beats and the steps that the statements of 10_state.md rest on. -/

namespace Sys2Proof.Machine

/-! ## Steps, one equation per case of rule R24 -/

section Steps
variable {s : State}

theorem step_of_idle_offer (hp : s.phase = .idle) (hr : s.pins.rst = false) (hv : s.pins.cmdValid = true) :
    step s = .next (s.tick.latch (Command.ofBeat s.cfg s.pins.cmd)) := by
  simpa [hp, hr, hv] using step_cases s

theorem step_of_idle_no_offer (hp : s.phase = .idle) (hr : s.pins.rst = false) (hv : s.pins.cmdValid = false) :
    step s = .next s.tick := by
  simpa [hp, hr, hv] using step_cases s

theorem step_of_busy (hp : s.phase = .busy) (hr : s.pins.rst = false) :
    step s = .next ((s.tick.noteOffer s.pins).answered (execCommand s.cfg s.cmdQ)) := by
  simpa [hp, hr] using step_cases s

theorem step_of_resp_ready (hp : s.phase = .resp) (hr : s.pins.rst = false) (hv : s.pins.rspReady = true) :
    step s = .next (s.tick.noteOffer s.pins).deliver := by
  simpa [hp, hr, hv] using step_cases s

theorem step_of_resp_not_ready (hp : s.phase = .resp) (hr : s.pins.rst = false) (hv : s.pins.rspReady = false) :
    step s = .next (s.tick.noteOffer s.pins) := by
  simpa [hp, hr, hv] using step_cases s

end Steps

/-! ## The output ports without reset (R23) -/

section Ports
variable {s : State}

theorem outputs_of_idle (hp : s.phase = .idle) (hr : s.pins.rst = false) :
    outputs s = { cmdReady := true, rspValid := false, rsp := none } := by
  simp [outputs, hp, hr]

theorem outputs_of_busy (hp : s.phase = .busy) (hr : s.pins.rst = false) :
    outputs s = { cmdReady := false, rspValid := false, rsp := none } := by
  simp [outputs, hp, hr]

theorem outputs_of_resp (hp : s.phase = .resp) (hr : s.pins.rst = false) :
    outputs s = { cmdReady := false, rspValid := true, rsp := some (s.rspQ.toBeat s.cfg) } := by
  simp [outputs, hp, hr]

end Ports

/-! ## Waiting beats (R22, R276 (a)) -/

/-- Recording an offer that is not accepted changes the waiting beats alone. -/
theorem State.noteOffer_eq (s : State) (p : Pins) :
    s.noteOffer p = { s with
      offers :=
        if p.cmdValid = true ∧ Command.ofBeat s.cfg p.cmd ∉ s.offers then s.offers ++ [Command.ofBeat s.cfg p.cmd]
        else s.offers } := by
  unfold State.noteOffer
  by_cases hv : p.cmdValid = true
  · by_cases hm : Command.ofBeat s.cfg p.cmd ∈ s.offers <;> simp [hv, hm]
  · simp [hv]

/-- A beat is latched as it is when no other beat was offered since the last acceptance. -/
theorem State.latch_of_held {s : State} {cmd : Command} (h : ∀ o ∈ s.offers, o = cmd) : s.latch cmd = s.accept cmd := by
  have hall : s.offers.all (fun o => decide (o = cmd)) = true := by simpa using h
  simp [State.latch, hall]

/-- Whatever the free value is, the picked beat is one of those offered. -/
theorem State.pickOffer_mem (s : State) (cmd : Command) (k : ℕ) : s.pickOffer cmd k ∈ s.offers ++ [cmd] := by
  have hlt : Config.freePick (s.free + k) % (s.offers ++ [cmd]).length < (s.offers ++ [cmd]).length :=
    Nat.mod_lt _ (by simp)
  unfold State.pickOffer
  rw [List.getD_eq_getElem _ _ hlt]
  exact List.getElem_mem hlt

/-! ## The fields of a beat (R70, R71) -/

/-- One more field of `w` bits below the number `x`: both beats are a head with three such fields. -/
def snoc (w x d : ℕ) : ℕ := x * 2 ^ w + d % 2 ^ w

theorem snoc_mod (w x d : ℕ) : snoc w x d % 2 ^ w = d % 2 ^ w := by
  simp [snoc]

theorem snoc_shiftRight (w x d : ℕ) : snoc w x d >>> w = x := by
  have hd : d % 2 ^ w < 2 ^ w := Nat.mod_lt _ (by positivity)
  rw [snoc, Nat.shiftRight_eq_div_pow, Nat.mul_comm, Nat.mul_add_div (by positivity), Nat.div_eq_of_lt hd, Nat.add_zero]

theorem snoc_lt {w x d m : ℕ} (hx : x < 2 ^ m) : snoc w x d < 2 ^ (m + w) := by
  have hd : d % 2 ^ w < 2 ^ w := Nat.mod_lt _ (by positivity)
  calc snoc w x d < x * 2 ^ w + 2 ^ w := by unfold snoc; omega
    _ = (x + 1) * 2 ^ w := by ring
    _ ≤ 2 ^ m * 2 ^ w := Nat.mul_le_mul_right _ hx
    _ = 2 ^ (m + w) := (pow_add 2 m w).symm

/-- A head and three fields of `w` bits, as the beats of R70 and R71 are laid out. -/
def packed (w h x y z : ℕ) : ℕ := snoc w (snoc w (snoc w h x) y) z

theorem packed_lt {w h x y z m : ℕ} (hh : h < 2 ^ m) : packed w h x y z < 2 ^ (m + 3 * w) :=
  calc packed w h x y z < 2 ^ (m + w + w + w) := snoc_lt (snoc_lt (snoc_lt hh))
    _ = 2 ^ (m + 3 * w) := by ring

theorem packed_shiftRight_one (w h x y z : ℕ) : packed w h x y z >>> w = snoc w (snoc w h x) y :=
  snoc_shiftRight ..

theorem packed_shiftRight_two (w h x y z : ℕ) : packed w h x y z >>> (2 * w) = snoc w h x := by
  rw [two_mul, Nat.shiftRight_add, packed_shiftRight_one, snoc_shiftRight]

theorem packed_shiftRight_three (w h x y z : ℕ) : packed w h x y z >>> (3 * w) = h := by
  rw [show 3 * w = 2 * w + w by ring, Nat.shiftRight_add, packed_shiftRight_two, snoc_shiftRight]

/-- Bits `lo` to `lo + w - 1` of a beat that holds the number `v`. -/
theorem bitsAt_ofNat_toNat {n v lo w : ℕ} (hv : v < 2 ^ n) (hw : w ≤ 64) :
    (bitsAt (BitVec.ofNat n v) lo w).toNat = v >>> lo % 2 ^ w := by
  have hlt : v >>> lo % 2 ^ w < 2 ^ 64 :=
    lt_of_lt_of_le (Nat.mod_lt _ (by positivity)) (Nat.pow_le_pow_right (by norm_num) hw)
  simp only [bitsAt, BitVec.toNat_setWidth, BitVec.extractLsb'_toNat, BitVec.toNat_ofNat, Nat.mod_eq_of_lt hv]
  exact Nat.mod_eq_of_lt hlt

theorem Word.fits_iff {c : Config} {w : Word} : Word.fits c w = true ↔ w.toNat < 2 ^ c.width := by
  simp [Word.fits]

/-- The three word fields of a beat are the words that were packed into it. -/
theorem bitsAt_packed {c : Config} {n m h : ℕ} {x y z : Word} (hh : h < 2 ^ m) (hn : m + 3 * c.width ≤ n)
    (hx : Word.fits c x = true) (hy : Word.fits c y = true) (hz : Word.fits c z = true) :
    bitsAt (BitVec.ofNat n (packed c.width h x.toNat y.toNat z.toNat)) (2 * c.width) c.width = x ∧
    bitsAt (BitVec.ofNat n (packed c.width h x.toNat y.toNat z.toNat)) c.width c.width = y ∧
    bitsAt (BitVec.ofNat n (packed c.width h x.toNat y.toNat z.toNat)) 0 c.width = z := by
  rw [Word.fits_iff] at hx hy hz
  have hlt : packed c.width h x.toNat y.toNat z.toNat < 2 ^ n :=
    lt_of_lt_of_le (packed_lt hh) (Nat.pow_le_pow_right (by norm_num) hn)
  refine ⟨?_, ?_, ?_⟩ <;> apply BitVec.eq_of_toNat_eq <;> rw [bitsAt_ofNat_toNat hlt (width_le c)]
  · rw [packed_shiftRight_two, snoc_mod, Nat.mod_eq_of_lt hx]
  · rw [packed_shiftRight_one, snoc_mod, Nat.mod_eq_of_lt hy]
  · rw [Nat.shiftRight_zero, packed, snoc_mod, Nat.mod_eq_of_lt hz]

/-- The head of a beat is the opcode or the error code that was packed into it. -/
theorem extractLsb'_packed_head {w n m x y z : ℕ} (h : BitVec m) (hn : m + 3 * w ≤ n) :
    (BitVec.ofNat n (packed w h.toNat x y z)).extractLsb' (3 * w) m = h := by
  have hlt : packed w h.toNat x y z < 2 ^ n :=
    lt_of_lt_of_le (packed_lt h.isLt) (Nat.pow_le_pow_right (by norm_num) hn)
  apply BitVec.eq_of_toNat_eq
  rw [BitVec.extractLsb'_toNat, BitVec.toNat_ofNat, Nat.mod_eq_of_lt hlt, packed_shiftRight_three,
    Nat.mod_eq_of_lt h.isLt]

theorem Command.toBeat_eq_packed (c : Config) (cmd : Command) :
    cmd.toBeat c = BitVec.ofNat 200 (packed c.width cmd.opc.toNat cmd.a.toNat cmd.b.toNat cmd.c.toNat) := rfl

theorem Response.toBeat_eq_packed (c : Config) (r : Response) :
    r.toBeat c = BitVec.ofNat 196 (packed c.width (Err.code r.err).toNat r.r0.toNat r.r1.toNat r.r2.toNat) := rfl

theorem Command.wellFormed_iff {c : Config} {cmd : Command} :
    cmd.wellFormed c = true ↔
      Word.fits c cmd.a = true ∧ Word.fits c cmd.b = true ∧ Word.fits c cmd.c = true := by
  simp [Command.wellFormed, and_assoc]

theorem Command.eq_of_fields {x y : Command} (hopc : x.opc = y.opc) (ha : x.a = y.a) (hb : x.b = y.b)
    (hc : x.c = y.c) : x = y := by
  cases x
  cases y
  simp_all

/-- R70: the fields read from a beat are those written into it. -/
theorem Command.ofBeat_toBeat {c : Config} {cmd : Command} (h : cmd.wellFormed c = true) :
    Command.ofBeat c (cmd.toBeat c) = cmd := by
  obtain ⟨ha, hb, hc⟩ := Command.wellFormed_iff.mp h
  have hn : 8 + 3 * c.width ≤ 200 := by have := width_le c; omega
  obtain ⟨hA, hB, hC⟩ := bitsAt_packed cmd.opc.isLt hn ha hb hc
  have hO := extractLsb'_packed_head (x := cmd.a.toNat) (y := cmd.b.toNat) (z := cmd.c.toNat) cmd.opc hn
  rw [← Command.toBeat_eq_packed] at hA hB hC hO
  exact Command.eq_of_fields hO hA hB hC

/-- R71: the fields of a response stand at their bits of its beat. -/
theorem Response.toBeat_fields {c : Config} {r : Response} (h0 : Word.fits c r.r0 = true)
    (h1 : Word.fits c r.r1 = true) (h2 : Word.fits c r.r2 = true) :
    (r.toBeat c).extractLsb' (3 * c.width) 4 = Err.code r.err ∧
    bitsAt (r.toBeat c) (2 * c.width) c.width = r.r0 ∧
    bitsAt (r.toBeat c) c.width c.width = r.r1 ∧
    bitsAt (r.toBeat c) 0 c.width = r.r2 := by
  have hn : 4 + 3 * c.width ≤ 196 := by have := width_le c; omega
  rw [Response.toBeat_eq_packed]
  exact ⟨extractLsb'_packed_head _ hn, bitsAt_packed (Err.code r.err).isLt hn h0 h1 h2⟩

/-! ## Words of the configuration (R12, R76) -/

@[simp] theorem Word.fits_zero (c : Config) : Word.fits c 0#64 = true := by
  cases c <;> decide

/-- A field of `W` bits is a word of the configuration. -/
theorem Word.fits_setWidth (c : Config) (x : BitVec c.width) : Word.fits c (x.setWidth 64) = true := by
  rw [Word.fits_iff, BitVec.toNat_setWidth]
  exact lt_of_le_of_lt (Nat.mod_le _ _) x.isLt

theorem Command.ofBeat_wellFormed (c : Config) (beat : CmdBeat) : (Command.ofBeat c beat).wellFormed c = true :=
  Command.wellFormed_iff.mpr ⟨Word.fits_setWidth c _, Word.fits_setWidth c _, Word.fits_setWidth c _⟩

@[simp] theorem Command.zero_wellFormed (c : Config) : Command.zero.wellFormed c = true :=
  Command.wellFormed_iff.mpr ⟨Word.fits_zero c, Word.fits_zero c, Word.fits_zero c⟩

theorem Response.good_raise (c : Config) (e : Err) : (Response.raise e).good c = true := by
  simp [Response.good, Response.raise]

theorem Response.good_one (c : Config) (v : Int) : (Response.one c v).good c = true := by
  simp [Response.good, Response.one, word_fits]

theorem Response.good_two (c : Config) (v w : Int) : (Response.two c v w).good c = true := by
  simp [Response.good, Response.two, word_fits]

theorem Response.good_three (c : Config) (v : Int × Int × Int) : (Response.three c v).good c = true := by
  simp [Response.good, Response.three, word_fits]

theorem Response.good_zero (c : Config) : Response.zero.good c = true := by
  simp [Response.good, Response.zero]

theorem Response.good_ite {c : Config} {p : Prop} [Decidable p] {r r' : Response} (h : r.good c = true)
    (h' : r'.good c = true) : (if p then r else r').good c = true := by
  split
  · exact h
  · exact h'

/-- What every meaning answers is good: one, two or three words of the configuration, or an error with zero results. -/
theorem respond_good (c : Config) (i : Instr) : (respond c i).good c = true := by
  cases i with
  | sincos | sinhcosh => exact Response.good_two ..
  | crot | cvec | hrot | hvec => exact Response.good_ite (Response.good_raise ..) (Response.good_three ..)
  | div | asin | acos | acosh | atanh | acoth | coth | ln | log2 | log10 | sqrt =>
    exact Response.good_ite (Response.good_raise ..) (Response.good_one ..)
  | add | sub | mul | shl | shr | sin | cos | tan | atan | atan2 | sinh | cosh | tanh | asinh | exp | pow2 =>
    exact Response.good_one ..

theorem execCommand_good (c : Config) (cmd : Command) : (execCommand c cmd).good c = true := by
  unfold execCommand
  split
  · exact respond_good c _
  · exact Response.good_raise c _

end Sys2Proof.Machine
end

section
/-! SUPPORT. The statements about the engine's state and its steps (10_state.md). -/

namespace Sys2Proof.Machine

/-! ## The invariant -/

/-- The invariant, conjunct by conjunct. -/
theorem State.good_iff {s : State} :
    s.good = true ↔
      s.cmdQ.wellFormed s.cfg = true ∧ s.rspQ.good s.cfg = true ∧
      (∀ o ∈ s.offers, o.wellFormed s.cfg = true) ∧ (∀ r ∈ s.received, r.good s.cfg = true) ∧
      (s.phase = .resp → s.rspQ = execCommand s.cfg s.cmdQ) := by
  simp [State.good, and_assoc, imp_iff_not_or]

section Invariant
variable {s : State}

theorem State.good_tick (h : s.good = true) : s.tick.good = true := h

theorem State.good_noteOffer (h : s.good = true) (p : Pins) : (s.noteOffer p).good = true := by
  obtain ⟨hcmd, hrsp, hoff, hrec, hresp⟩ := State.good_iff.mp h
  rw [State.noteOffer_eq]
  refine State.good_iff.mpr ⟨hcmd, hrsp, fun o ho => ?_, hrec, hresp⟩
  dsimp only at ho
  split at ho
  · rcases List.mem_append.mp ho with hold | hnew
    · exact hoff o hold
    · rw [List.mem_singleton.mp hnew]
      exact Command.ofBeat_wellFormed ..
  · exact hoff o ho

theorem State.good_resetEngine (h : s.good = true) : s.resetEngine.good = true := by
  obtain ⟨-, -, hoff, hrec, -⟩ := State.good_iff.mp h
  exact State.good_iff.mpr ⟨Command.zero_wellFormed _, Response.good_zero _, hoff, hrec, nofun⟩

/-- The latched command is made of fields of beats that were offered, whichever they are (I7). -/
theorem State.latch_cmdQ_wellFormed {cmd : Command} (hoff : ∀ o ∈ s.offers, o.wellFormed s.cfg = true)
    (hcmd : cmd.wellFormed s.cfg = true) : (s.latch cmd).cmdQ.wellFormed s.cfg = true := by
  have hpick : ∀ k, (s.pickOffer cmd k).wellFormed s.cfg = true := fun k => by
    rcases List.mem_append.mp (s.pickOffer_mem cmd k) with hold | hnew
    · exact hoff _ hold
    · rwa [List.mem_singleton.mp hnew]
  unfold State.latch
  split
  · exact hcmd
  · obtain ⟨ha, -, -⟩ := Command.wellFormed_iff.mp (hpick 1)
    obtain ⟨-, hb, -⟩ := Command.wellFormed_iff.mp (hpick 2)
    obtain ⟨-, -, hc⟩ := Command.wellFormed_iff.mp (hpick 3)
    exact Command.wellFormed_iff.mpr ⟨ha, hb, hc⟩

theorem State.good_latch (h : s.good = true) {cmd : Command} (hcmd : cmd.wellFormed s.cfg = true) :
    (s.latch cmd).good = true := by
  obtain ⟨-, hrsp, hoff, hrec, -⟩ := State.good_iff.mp h
  refine State.good_iff.mpr ⟨?_, ?_, ?_, ?_, ?_⟩
  · rw [State.latch_cfg]
    exact State.latch_cmdQ_wellFormed hoff hcmd
  · simpa using hrsp
  · simp
  · simpa using hrec
  · simp

theorem State.good_answered (h : s.good = true) : (s.answered (execCommand s.cfg s.cmdQ)).good = true := by
  obtain ⟨hcmd, -, hoff, hrec, -⟩ := State.good_iff.mp h
  exact State.good_iff.mpr ⟨hcmd, execCommand_good .., hoff, hrec, fun _ => rfl⟩

theorem State.good_deliver (h : s.good = true) : s.deliver.good = true := by
  obtain ⟨hcmd, hrsp, hoff, hrec, -⟩ := State.good_iff.mp h
  refine State.good_iff.mpr ⟨hcmd, hrsp, hoff, fun r hr => ?_, nofun⟩
  rcases List.mem_append.mp hr with hold | hnew
  · exact hrec r hold
  · rwa [List.mem_singleton.mp hnew]

end Invariant

/-- A step from a good state leads to a good state: each of the updates that it is made of keeps the invariant. -/
theorem step_good {s : State} (hs : s.good = true) : ∃ t, step s = .next t ∧ t.good = true := by
  have htick : s.tick.good = true := State.good_tick hs
  have hwait : (s.tick.noteOffer s.pins).good = true := State.good_noteOffer htick _
  rcases step_cases s with ⟨-, h⟩ | ⟨-, -, -, h⟩ | ⟨-, -, -, h⟩ | ⟨-, -, h⟩ | ⟨-, -, -, h⟩ | ⟨-, -, -, h⟩
  · exact ⟨_, h, State.good_resetEngine hwait⟩
  · exact ⟨_, h, State.good_latch htick (Command.ofBeat_wellFormed ..)⟩
  · exact ⟨_, h, htick⟩
  · exact ⟨_, h, by simpa using State.good_answered hwait⟩
  · exact ⟨_, h, State.good_deliver hwait⟩
  · exact ⟨_, h, hwait⟩

/-- Settles O57. -/
theorem goodIsKeptByEveryStep : Obligations.GoodIsKeptByEveryStep := by
  intro s t hs hstep
  obtain ⟨u, hu, hgood⟩ := step_good hs
  obtain rfl : u = t := Host.Outcome.next.inj (hu.symm.trans hstep)
  exact hgood

theorem State.resetOf_good (c : Config) : (State.resetOf c).good = true :=
  State.good_iff.mpr ⟨Command.zero_wellFormed c, Response.good_zero c, by simp [State.resetOf], by simp [State.resetOf],
    nofun⟩

/-- Settles O58. -/
theorem resetIsGood : Obligations.ResetIsGood :=
  ⟨fun c => ⟨State.resetOf_good c, State.resetOf_phase c, State.resetOf_cfg c⟩, State.resetOf_good .i16f16⟩

/-! ## Single steps -/

/-- Settles O56: in each case of rule R24 and of reset the step answers a next state, and `deliver` alone writes `received`. -/
theorem everyStepAnswersNext : Obligations.EveryStepAnswersNext := by
  intro s
  rcases step_cases s with ⟨-, h⟩ | ⟨-, -, -, h⟩ | ⟨-, -, -, h⟩ | ⟨-, -, h⟩ | ⟨hr, hp, hv, h⟩ | ⟨-, -, -, h⟩
  case inr.inr.inr.inr.inl => exact ⟨_, h, by simp, .inr ⟨hp, hr, hv, by simp⟩⟩
  all_goals exact ⟨_, h, by simp, .inl (by simp)⟩

/-- Settles O52: the `compute` step is the meaning of the decoded command, on the state that has recorded a waiting beat. -/
theorem stepRunsDecodedCommand : Obligations.StepRunsDecodedCommand := by
  refine ⟨fun s hp hr => by simp [outputs_of_busy hp hr], fun s i hp hr hd => ⟨_, rfl, ?_⟩⟩
  have hresp : execCommand s.cfg s.cmdQ = respond s.cfg i := by simp [execCommand, hd]
  calc step s = .next ((s.tick.noteOffer s.pins).answered (respond s.cfg i)) := by rw [step_of_busy hp hr, hresp]
    _ = exec i (s.tick.noteOffer s.pins) := by simp [exec_eq_answered]
    _ = _ := by rw [State.noteOffer_eq]; rfl

/-- Settles O53. -/
theorem acceptTakesTheOfferedBeat : Obligations.AcceptTakesTheOfferedBeat := by
  intro s hp hr
  refine ⟨by simp [outputs_of_idle hp hr], fun hv hheld => ?_, fun hv => step_of_idle_no_offer hp hr hv⟩
  rw [step_of_idle_offer hp hr hv, State.latch_of_held (by simpa using hheld)]
  rfl

/-- Settles O54: the beat by `Response.toBeat_fields`, the two transfers by the two cases of RESP. -/
theorem deliverOrHold : Obligations.DeliverOrHold := by
  refine ⟨fun c r => Response.toBeat_fields, fun s hp hr => ?_⟩
  refine ⟨by simp [outputs_of_resp hp hr], fun hv => ?_, fun hv => ?_⟩
  · exact ⟨_, step_of_resp_not_ready hp hr hv, by simp [hp]⟩
  · exact ⟨_, step_of_resp_ready hp hr hv, by simp⟩

/-- Settles O59: `rsp_q` after `compute` is `execCommand` of the configuration and the latched command. -/
theorem responseIndependentOfHistory : Obligations.ResponseIndependentOfHistory := by
  intro s s' hp hp' hr hr' hcfg hcmd
  exact ⟨_, _, step_of_busy hp hr, step_of_busy hp' hr', rfl, rfl, by simp [hcfg, hcmd]⟩

/-! ## Runs -/

/-- A run of one step and of the steps after it. -/
theorem run_succ_of_step {s t : State} {r : Result} {n : ℕ} (hstep : step s = .next t)
    (hrun : Sys2Proof.core.run n t = r) : Sys2Proof.core.run (n + 1) s = r := by
  have hcore : Sys2Proof.core.step s = .next t := hstep
  simpa only [Host.Core.run, hcore] using hrun

/-- A run of `m` steps and of the `n` steps after them. -/
theorem run_add {s t : State} {r : Result} {m n : ℕ} (hm : Sys2Proof.core.run m s = .next t)
    (hn : Sys2Proof.core.run n t = r) : Sys2Proof.core.run (m + n) s = r := by
  induction m generalizing s with
  | zero =>
    obtain rfl : s = t := Host.Outcome.next.inj hm
    simpa using hn
  | succ m ih =>
    obtain ⟨u, hu, -⟩ := everyStepAnswersNext s
    have hcore : Sys2Proof.core.step s = .next u := hu
    rw [Nat.add_right_comm]
    exact run_succ_of_step hu (ih (by simpa only [Host.Core.run, hcore] using hm))

/-- The state with other host inputs to come. -/
def State.withInputs (s : State) (ps : List Pins) : State := { s with inputs := ps }

/-- Outside BUSY an engine whose host asks for nothing stays as it is (R22). -/
theorem step_withInputs_idle {s : State} (hp : s.phase ≠ .busy) (ps : List Pins) :
    step (s.withInputs (Pins.idle :: ps)) = .next (s.withInputs ps) := by
  cases h : s.phase with
  | idle => exact step_of_idle_no_offer h rfl rfl
  | busy => exact absurd h hp
  | resp => exact step_of_resp_not_ready h rfl rfl

/-- It stays as it is for any number of steps. -/
theorem run_withInputs_replicate_idle {s : State} (hp : s.phase ≠ .busy) (n : ℕ) (ps : List Pins) :
    Sys2Proof.core.run n (s.withInputs (List.replicate n Pins.idle ++ ps)) = .next (s.withInputs ps) := by
  induction n with
  | zero => rfl
  | succ n ih => exact run_succ_of_step (step_withInputs_idle hp _) ih

/-- What the host drives to offer a beat. -/
def Pins.offer (beat : CmdBeat) : Pins := { Pins.idle with cmdValid := true, cmd := beat }

/-- What the host drives to take a response. -/
def Pins.take : Pins := { Pins.idle with rspReady := true }

/-- The inputs of one turn, in the order of the steps. -/
theorem hostTurn_append (c : Config) (before : ℕ) (cmd : Command) (after : ℕ) (ps : List Pins) :
    hostTurn c before cmd after ++ ps =
      List.replicate before Pins.idle ++
        Pins.offer (cmd.toBeat c) :: Pins.idle :: (List.replicate after Pins.idle ++ Pins.take :: ps) := by
  simp [hostTurn, Pins.offer, Pins.take]

/-- The state in which the engine offers the response of `cmd`. -/
def State.offering (s : State) (cmd : Command) : State := (s.accept cmd).answered (execCommand s.cfg cmd)

/-- The state after one whole turn: the response of `cmd` received, IDLE again. -/
def State.served (s : State) (cmd : Command) : State := (s.offering cmd).deliver

section Turn
variable {s : State} {cmd : Command}

theorem step_withInputs_offer (hp : s.phase = .idle) (ho : s.offers = []) (hc : cmd.wellFormed s.cfg = true)
    (ps : List Pins) :
    step (s.withInputs (Pins.offer (cmd.toBeat s.cfg) :: ps)) = .next ((s.accept cmd).withInputs ps) := by
  have hstep : step (s.withInputs (Pins.offer (cmd.toBeat s.cfg) :: ps)) =
      .next ((s.withInputs ps).latch (Command.ofBeat s.cfg (cmd.toBeat s.cfg))) :=
    step_of_idle_offer hp rfl rfl
  rw [hstep, Command.ofBeat_toBeat hc, State.latch_of_held (by simp [State.withInputs, ho])]
  rfl

theorem step_withInputs_compute (ps : List Pins) :
    step ((s.accept cmd).withInputs (Pins.idle :: ps)) = .next ((s.offering cmd).withInputs ps) :=
  step_of_busy rfl rfl

theorem step_withInputs_take (ps : List Pins) :
    step ((s.offering cmd).withInputs (Pins.take :: ps)) = .next ((s.served cmd).withInputs ps) :=
  step_of_resp_ready rfl rfl rfl

/-- One turn of the host on an idle engine: wait, `accept`, `compute`, wait, `deliver`. -/
theorem run_hostTurn (hp : s.phase = .idle) (ho : s.offers = []) (hc : cmd.wellFormed s.cfg = true)
    (before after : ℕ) (ps : List Pins) :
    Sys2Proof.core.run (before + after + 3) (s.withInputs (hostTurn s.cfg before cmd after ++ ps)) =
      .next ((s.served cmd).withInputs ps) := by
  have hdeliver : Sys2Proof.core.run (after + 1)
      ((s.offering cmd).withInputs (List.replicate after Pins.idle ++ Pins.take :: ps)) =
        .next ((s.served cmd).withInputs ps) :=
    run_add (run_withInputs_replicate_idle (by simp [State.offering]) after _)
      (run_succ_of_step (step_withInputs_take ps) rfl)
  rw [hostTurn_append, show before + after + 3 = before + (after + 1 + 1 + 1) by ring]
  refine run_add (run_withInputs_replicate_idle (by simp [hp]) before _) ?_
  exact run_succ_of_step (step_withInputs_offer hp ho hc _) (run_succ_of_step (step_withInputs_compute _) hdeliver)

end Turn

/-- What the host drives for a list of turns, one after the other. -/
def hostTurns (c : Config) (turns : List (ℕ × Command × ℕ)) : List Pins :=
  turns.flatMap fun x => hostTurn c x.1 x.2.1 x.2.2

theorem hostTurns_cons (c : Config) (before : ℕ) (cmd : Command) (after : ℕ) (turns : List (ℕ × Command × ℕ)) :
    hostTurns c ((before, cmd, after) :: turns) = hostTurn c before cmd after ++ hostTurns c turns := rfl

/-- Settles O60, by induction on the list of commands: after the first turn the engine is idle, with the rest to come. -/
theorem commandsAnsweredInOrder : Obligations.CommandsAnsweredInOrder := by
  intro turns
  induction turns with
  | nil => exact fun s hp ho _ hin => ⟨s, rfl, by simp, hp, ho, hin, rfl, rfl⟩
  | cons turn turns ih =>
    intro s hp ho hwf hin
    obtain ⟨before, cmd, after⟩ := turn
    obtain ⟨hcmd, hrest⟩ := List.forall_mem_cons.mp hwf
    have hinputs : s.inputs = hostTurns s.cfg ((before, cmd, after) :: turns) := hin
    have hfirst : Sys2Proof.core.run (before + after + 3) s =
        .next ((s.served cmd).withInputs (hostTurns s.cfg turns)) :=
      calc Sys2Proof.core.run (before + after + 3) s
          = Sys2Proof.core.run (before + after + 3) (s.withInputs s.inputs) := rfl
        _ = _ := by rw [hinputs, hostTurns_cons, run_hostTurn hp ho hcmd]
    obtain ⟨t, hrun, hreceived, hidle, hoffers, hdone, hcfg, hfree⟩ :=
      ih ((s.served cmd).withInputs (hostTurns s.cfg turns)) rfl rfl hrest rfl
    refine ⟨t, run_add hfirst hrun, ?_, hidle, hoffers, hdone, hcfg, hfree⟩
    calc t.received = s.received ++ [execCommand s.cfg cmd] ++ turns.map (fun x => execCommand s.cfg x.2.1) := hreceived
      _ = _ := by simp

end Sys2Proof.Machine
end

section
/-! SUPPORT. Rational enclosures of the real functions by which the constant ROM is defined (20_memory.md rules R54 to R57): partial
sums of their power series, which the kernel evaluates, as bounds from below and from above. -/

namespace Sys2Proof.Machine

/-! ## The partial sums -/

/-- The first `n` terms of the power series of `arctan`. -/
def arctanSum (x : ℚ) (n : ℕ) : ℚ := ∑ i ∈ Finset.range n, (-1) ^ i * (x ^ (2 * i + 1) / (2 * i + 1))

/-- The first `n` terms of the power series of `artanh`. -/
def artanhSum (x : ℚ) (n : ℕ) : ℚ := ∑ i ∈ Finset.range n, x ^ (2 * i + 1) / (2 * i + 1)

/-- A bound on the rest of the power series of `artanh` after `n` terms. -/
def artanhRest (x : ℚ) (n : ℕ) : ℚ := x ^ (2 * n + 1) / (1 - x ^ 2)

/-- The power series of `arctan` alternates with decreasing terms, so its partial sums of even and odd length enclose it. -/
theorem arctan_enclosure {x : ℚ} (h0 : 0 ≤ x) (h1 : x < 1) (n : ℕ) :
    (arctanSum x (2 * n) : ℝ) ≤ Real.arctan x ∧ Real.arctan x ≤ (arctanSum x (2 * n + 1) : ℝ) := by
  have h0' : (0 : ℝ) ≤ x := by exact_mod_cast h0
  have h1' : (x : ℝ) < 1 := by exact_mod_cast h1
  have hterms : Antitone fun i : ℕ => (x : ℝ) ^ (2 * i + 1) / (2 * i + 1) := fun i j hij => by
    have := pow_le_pow_of_le_one h0' h1'.le (show 2 * i + 1 ≤ 2 * j + 1 by omega)
    dsimp only
    gcongr
  have hseries : Filter.Tendsto (fun n => ∑ i ∈ Finset.range n, (-1 : ℝ) ^ i * ((x : ℝ) ^ (2 * i + 1) / (2 * i + 1)))
      Filter.atTop (nhds (Real.arctan x)) := by
    have := (Real.hasSum_arctan (x := x) (by rwa [Real.norm_of_nonneg h0'])).tendsto_sum_nat
    simpa [mul_div_assoc] using this
  constructor
  · simpa [arctanSum] using hterms.alternating_series_le_tendsto hseries n
  · simpa [arctanSum] using hterms.tendsto_le_alternating_series hseries n

/-- The partial sums of the power series of `artanh` are lower bounds, and upper bounds together with the bound on the rest; here
for the half logarithm that `artanh` is. -/
theorem half_log_enclosure {x : ℚ} (h0 : 0 ≤ x) (h1 : x < 1) (n : ℕ) :
    (artanhSum x n : ℝ) ≤ 1 / 2 * Real.log ((1 + x) / (1 - x)) ∧
      1 / 2 * Real.log ((1 + x) / (1 - x)) ≤ ((artanhSum x n + artanhRest x n : ℚ) : ℝ) := by
  have h0' : (0 : ℝ) ≤ x := by exact_mod_cast h0
  have h1' : (x : ℝ) < 1 := by exact_mod_cast h1
  constructor
  · simpa [artanhSum] using Real.sum_range_le_log_div h0' h1' n
  · simpa [artanhSum, artanhRest] using Real.log_div_le_sum_range_add h0' h1' n

theorem artanh_enclosure {x : ℚ} (h0 : 0 ≤ x) (h1 : x < 1) (n : ℕ) :
    (artanhSum x n : ℝ) ≤ Real.artanh x ∧ Real.artanh x ≤ ((artanhSum x n + artanhRest x n : ℚ) : ℝ) := by
  have hx : (x : ℝ) ∈ Set.Icc (-1 : ℝ) 1 := ⟨by exact_mod_cast (by linarith : (-1 : ℚ) ≤ x), by exact_mod_cast h1.le⟩
  rw [Real.artanh_eq_half_log hx]
  exact half_log_enclosure h0 h1 n

/-! ## Logarithms and `π` -/

/-- `log 2 = 2 artanh (1/3)`, to 23 decimal digits. -/
theorem log_two_mem_Icc :
    Real.log 2 ∈ Set.Icc (0.69314718055994530941723 : ℝ) 0.69314718055994530941724 := by
  have hlo : (0.69314718055994530941723 : ℚ) ≤ 2 * artanhSum (1 / 3) 26 := by decide +kernel
  have hhi : 2 * (artanhSum (1 / 3) 26 + artanhRest (1 / 3) 26) ≤ (0.69314718055994530941724 : ℚ) := by decide +kernel
  have henc := half_log_enclosure (x := 1 / 3) (by norm_num) (by norm_num) 26
  rify at hlo hhi henc
  norm_num at hlo hhi henc ⊢
  constructor <;> linarith

/-- `log 2` between rational numbers, for a comparison that the kernel evaluates. -/
theorem log_two_enclosure : ((0.69314718055994530941723 : ℚ) : ℝ) ≤ Real.log 2 ∧
    Real.log 2 ≤ ((0.69314718055994530941724 : ℚ) : ℝ) := by
  push_cast
  exact log_two_mem_Icc

/-- `log 10 = 3 log 2 + 2 artanh (1/9)`, to 15 decimal digits. -/
theorem log_ten_enclosure : ((2.302585092994045 : ℚ) : ℝ) ≤ Real.log 10 ∧
    Real.log 10 ≤ ((2.302585092994046 : ℚ) : ℝ) := by
  have hlo : (0.2231435513142097 : ℚ) ≤ 2 * artanhSum (1 / 9) 9 := by decide +kernel
  have hhi : 2 * (artanhSum (1 / 9) 9 + artanhRest (1 / 9) 9) ≤ (0.2231435513142098 : ℚ) := by decide +kernel
  have henc := half_log_enclosure (x := 1 / 9) (by norm_num) (by norm_num) 9
  have hten : Real.log 10 = 3 * Real.log 2 + Real.log (5 / 4) := by
    rw [show (10 : ℝ) = 2 ^ 3 * (5 / 4) by norm_num, Real.log_mul (by norm_num) (by norm_num), Real.log_pow]
    norm_num
  obtain ⟨hlo2, hhi2⟩ := log_two_mem_Icc
  rify at hlo hhi henc
  norm_num at hlo hhi henc hlo2 hhi2 ⊢
  constructor <;> linarith

theorem pi_enclosure : ((3.14159265358979323846 : ℚ) : ℝ) ≤ Real.pi ∧ Real.pi ≤ ((3.14159265358979323847 : ℚ) : ℝ) := by
  push_cast
  exact ⟨Real.pi_gt_d20.le, Real.pi_lt_d20.le⟩

/-- A part of an enclosed number is enclosed by the parts. -/
theorem div_enclosure {x : ℝ} {lo hi : ℚ} (henc : (lo : ℝ) ≤ x ∧ x ≤ (hi : ℝ)) (n : ℕ) :
    ((lo / n : ℚ) : ℝ) ≤ x / n ∧ x / n ≤ ((hi / n : ℚ) : ℝ) := by
  obtain ⟨hlo, hhi⟩ := henc
  push_cast
  constructor <;> gcongr

end Sys2Proof.Machine
end

section
/-! SUPPORT. What it takes to be the nearest integer (20_memory.md rule R52) or the least raw value (rule R59), in terms of bounds. -/

namespace Sys2Proof.Machine

/-! ## Nearest integers -/

theorem nearestTo_iff {v : ℤ} {x : ℝ} : NearestTo v x ↔ (v : ℝ) - 1 / 2 < x ∧ x < v + 1 / 2 := by
  unfold NearestTo
  rw [abs_lt]
  constructor <;> rintro ⟨h1, h2⟩ <;> constructor <;> linarith

/-- A rational enclosure of `x`, scaled by `2^F`, pins the nearest integer. -/
theorem nearestTo_of_enclosure {v : ℤ} {x : ℝ} {lo hi : ℚ} {n : ℕ} (henc : (lo : ℝ) ≤ x ∧ x ≤ (hi : ℝ))
    (hlo : (v : ℚ) - 1 / 2 < lo * 2 ^ n) (hhi : hi * 2 ^ n < (v : ℚ) + 1 / 2) : NearestTo v (x * 2 ^ n) := by
  obtain ⟨hxlo, hxhi⟩ := henc
  rify at hlo hhi
  rw [nearestTo_iff]
  constructor
  · calc (v : ℝ) - 1 / 2 < lo * 2 ^ n := hlo
      _ ≤ x * 2 ^ n := by gcongr
  · calc x * 2 ^ n ≤ hi * 2 ^ n := by gcongr
      _ < v + 1 / 2 := hhi

theorem nearestTo_div_iff {v : ℤ} {a b : ℝ} (hb : 0 < b) :
    NearestTo v (a / b) ↔ ((v : ℝ) - 1 / 2) * b < a ∧ a < (v + 1 / 2) * b := by
  rw [nearestTo_iff, lt_div_iff₀ hb, div_lt_iff₀ hb]

/-- A rational enclosure of `x` pins the integer nearest to `2^F / x`. -/
theorem nearestTo_div_of_enclosure {v : ℤ} {x : ℝ} {lo hi : ℚ} {n : ℕ} (henc : (lo : ℝ) ≤ x ∧ x ≤ (hi : ℝ))
    (hv : 0 < v) (hpos : 0 < lo) (hlo : ((v : ℚ) - 1 / 2) * hi < 2 ^ n) (hhi : 2 ^ n < ((v : ℚ) + 1 / 2) * lo) :
    NearestTo v (2 ^ n / x) := by
  obtain ⟨hxlo, hxhi⟩ := henc
  have hv' : (1 : ℝ) ≤ v := by exact_mod_cast hv
  rify at hpos hlo hhi
  rw [nearestTo_div_iff (hpos.trans_le hxlo)]
  constructor
  · calc ((v : ℝ) - 1 / 2) * x ≤ (v - 1 / 2) * hi := by gcongr; linarith
      _ < 2 ^ n := hlo
  · calc (2 : ℝ) ^ n < (v + 1 / 2) * lo := hhi
      _ ≤ (v + 1 / 2) * x := by gcongr

/-- A product of reciprocal square roots is the reciprocal of one square root, of a rational number. -/
theorem prod_one_div_sqrt {α : Type} (f : α → ℚ) (hf : ∀ a, 0 ≤ f a) (l : List α) :
    (l.map fun a => 1 / √(f a : ℝ)).prod = 1 / √((l.map f).prod : ℚ) := by
  induction l with
  | nil => simp
  | cons a l ih =>
    have ha : (0 : ℝ) ≤ f a := by exact_mod_cast hf a
    rw [List.map_cons, List.prod_cons, ih, List.map_cons, List.prod_cons, Rat.cast_mul, Real.sqrt_mul ha]
    ring

/-- The nearest integer to a gain (R56): a comparison of the squares, which are rational. -/
theorem nearestTo_gain {α : Type} {v : ℤ} {n : ℕ} {f : α → ℚ} {l : List α} (hf : ∀ a, 0 ≤ f a) (hv : 0 < v)
    (hp : 0 < (l.map f).prod) (hlo : ((v : ℚ) - 1 / 2) ^ 2 * (l.map f).prod < (2 ^ n) ^ 2)
    (hhi : (2 ^ n) ^ 2 < ((v : ℚ) + 1 / 2) ^ 2 * (l.map f).prod) :
    NearestTo v (2 ^ n * (l.map fun a => 1 / √(f a : ℝ)).prod) := by
  rw [prod_one_div_sqrt f hf, mul_one_div]
  generalize (l.map f).prod = p at hp hlo hhi
  rify at hv hp hlo hhi
  rw [nearestTo_div_iff (Real.sqrt_pos.mpr hp)]
  constructor
  · refine lt_of_pow_lt_pow_left₀ 2 (by positivity) ?_
    rwa [mul_pow, Real.sq_sqrt hp.le]
  · refine lt_of_pow_lt_pow_left₀ 2 (by positivity) ?_
    rwa [mul_pow, Real.sq_sqrt hp.le]

/-! ## Thresholds -/

/-- For a property that says "at least `b`" of the real value, the threshold is the least raw value from `b` on. -/
theorem leastRaw_of_iff_le {c : Config} {p : ℝ → Prop} {b : ℝ} {t : ℤ} (hp : ∀ x, p x ↔ b ≤ x)
    (hlo : minRaw c ≤ t) (hhi : t ≤ maxRaw c) (ht : b * 2 ^ c.frac ≤ t) (hpred : (t : ℝ) - 1 < b * 2 ^ c.frac) :
    LeastRaw c p t := by
  refine leastRaw_of_pred (fun x y hxy hx => (hp y).mpr (((hp x).mp hx).trans hxy)) hlo hhi ?_ ?_
  · rwa [hp, le_div_iff₀ (by positivity)]
  · rw [hp, le_div_iff₀ (by positivity), not_le]
    exact_mod_cast hpred

theorem two_pow_le_exp_iff {n : ℕ} {x : ℝ} : (2 : ℝ) ^ n ≤ Real.exp x ↔ n * Real.log 2 ≤ x := by
  rw [← Real.log_le_iff_le_exp (by positivity), Real.log_pow]

theorem one_div_two_pow_le_exp_iff {n : ℕ} {x : ℝ} : (1 : ℝ) / 2 ^ n ≤ Real.exp x ↔ -(n * Real.log 2) ≤ x := by
  rw [← Real.log_le_iff_le_exp (by positivity), one_div, Real.log_inv, Real.log_pow]

theorem two_pow_le_rpow_iff {n : ℕ} {x : ℝ} : (2 : ℝ) ^ n ≤ (2 : ℝ) ^ x ↔ n ≤ x := by
  rw [← Real.rpow_natCast, Real.rpow_le_rpow_left_iff one_lt_two]

theorem one_div_two_pow_le_rpow_iff {n : ℕ} {x : ℝ} : (1 : ℝ) / 2 ^ n ≤ (2 : ℝ) ^ x ↔ -(n : ℝ) ≤ x := by
  rw [one_div, ← Real.rpow_natCast, ← Real.rpow_neg zero_le_two, Real.rpow_le_rpow_left_iff one_lt_two]

theorem exp_mul_log_two_add (n : ℕ) (e : ℝ) : Real.exp (n * Real.log 2 + e) = 2 ^ n * Real.exp e := by
  rw [Real.exp_add, Real.exp_nat_mul, Real.exp_log zero_lt_two]

theorem exp_neg_le_of_mul_log_two_le {n : ℕ} {x : ℝ} (h : n * Real.log 2 ≤ x) : Real.exp (-x) ≤ (2 ^ n)⁻¹ := by
  rw [Real.exp_neg]
  exact inv_anti₀ (by positivity) (two_pow_le_exp_iff.mpr h)

/-- `sinh x` has reached `2^n` a little above `(n + 1) log 2`, where `e^x` exceeds `2^(n+1)` by more than `e^(-x)`. -/
theorem two_pow_le_sinh {n : ℕ} {x : ℝ} (hx : ((n + 1 : ℕ) : ℝ) * Real.log 2 + ((2 ^ (n + 1))⁻¹) ^ 2 ≤ x) :
    2 ^ n ≤ Real.sinh x := by
  have hneg : Real.exp (-x) ≤ (2 ^ (n + 1))⁻¹ := exp_neg_le_of_mul_log_two_le (le_trans (by simp) hx)
  have hpos : (2 : ℝ) ^ (n + 1) + (2 ^ (n + 1))⁻¹ ≤ Real.exp x :=
    calc (2 : ℝ) ^ (n + 1) + (2 ^ (n + 1))⁻¹ = 2 ^ (n + 1) * (((2 ^ (n + 1))⁻¹) ^ 2 + 1) := by field_simp; ring
      _ ≤ 2 ^ (n + 1) * Real.exp (((2 ^ (n + 1))⁻¹) ^ 2) := by gcongr; exact Real.add_one_le_exp _
      _ ≤ Real.exp x := by rw [← exp_mul_log_two_add]; exact Real.exp_le_exp.mpr hx
  rw [Real.sinh_eq]
  linarith [pow_succ (2 : ℝ) n]

/-- `cosh x` has not reached `2^n` a little below `(n + 1) log 2`, where `e^x` falls short of `2^(n+1)` by more than `e^(-x)`. -/
theorem cosh_lt_two_pow {n : ℕ} {x : ℝ} (hlo : n * Real.log 2 ≤ x)
    (hhi : x + 2 * ((2 ^ n)⁻¹) ^ 2 ≤ ((n + 1 : ℕ) : ℝ) * Real.log 2) : Real.cosh x < 2 ^ n := by
  have hneg : Real.exp (-x) ≤ (2 ^ n)⁻¹ := exp_neg_le_of_mul_log_two_le hlo
  have hle : (2 ^ n : ℝ)⁻¹ ≤ 1 := inv_le_one_of_one_le₀ (one_le_pow₀ one_le_two)
  have hone : (2 : ℝ) ^ n * (2 ^ n)⁻¹ = 1 := mul_inv_cancel₀ (by positivity)
  have hpos : Real.exp x * (1 + 2 * ((2 ^ n)⁻¹) ^ 2) ≤ 2 * 2 ^ n :=
    calc Real.exp x * (1 + 2 * ((2 ^ n)⁻¹) ^ 2) ≤ Real.exp x * Real.exp (2 * ((2 ^ n)⁻¹) ^ 2) := by
          gcongr; linarith [Real.add_one_le_exp (2 * ((2 ^ n : ℝ)⁻¹) ^ 2)]
      _ = Real.exp (x + 2 * ((2 ^ n)⁻¹) ^ 2) := (Real.exp_add _ _).symm
      _ ≤ Real.exp (((n + 1 : ℕ) : ℝ) * Real.log 2 + 0) := by rw [add_zero]; exact Real.exp_le_exp.mpr hhi
      _ = 2 * 2 ^ n := by rw [exp_mul_log_two_add, Real.exp_zero, pow_succ]; ring
  have hgap : 2 * 2 ^ n < (2 * 2 ^ n - (2 ^ n : ℝ)⁻¹) * (1 + 2 * ((2 ^ n)⁻¹) ^ 2) := by
    have hinv : (0 : ℝ) < (2 ^ n)⁻¹ := by positivity
    generalize (2 ^ n : ℝ)⁻¹ = u at hle hone hinv ⊢
    nlinarith [pow_pos hinv 2]
  have hexp : Real.exp x < 2 * 2 ^ n - (2 ^ n : ℝ)⁻¹ := lt_of_mul_lt_mul_right (hpos.trans_lt hgap) (by positivity)
  rw [Real.cosh_eq]
  linarith

end Sys2Proof.Machine
end

section
/-! SUPPORT. The statements about the constant ROM (20_memory.md). -/

namespace Sys2Proof.Machine

/-! ## The circular table (R54) -/

/-- The comparison of each entry after the first with the series of `arctan`. -/
theorem ctab_arctanSum (c : Config) : ∀ p ∈ (ctab c).zipIdx, p.2 ≠ 0 →
    (p.1 : ℚ) - 1 / 2 < arctanSum ((1 / 2) ^ p.2) (2 * 9) * 2 ^ c.frac ∧
      arctanSum ((1 / 2) ^ p.2) (2 * 9 + 1) * 2 ^ c.frac < (p.1 : ℚ) + 1 / 2 := by
  cases c <;> decide +kernel

theorem ctab_pos_lt (c : Config) : ∀ e ∈ ctab c, 0 < e ∧ e < 2 ^ c.frac := by
  cases c <;> decide +kernel

/-- The first entry is a quarter of `π`, where the series of `arctan` does not help. -/
theorem ctab_zero_nearest (c : Config) {e : ℤ} (h : (ctab c)[0]? = some e) :
    NearestTo e (Real.arctan 1 * 2 ^ c.frac) := by
  rw [Real.arctan_one]
  have henc := div_enclosure pi_enclosure 4
  cases c with
  | i16f16 =>
    obtain rfl : 51472 = e := Option.some.inj h
    exact nearestTo_of_enclosure henc (by decide +kernel) (by decide +kernel)
  | i32f32 =>
    obtain rfl : 3373259426 = e := Option.some.inj h
    exact nearestTo_of_enclosure henc (by decide +kernel) (by decide +kernel)

/-- Every entry of the circular table, by its two cases. -/
theorem ctab_nearest (c : Config) {i : ℕ} {e : ℤ} (h : (ctab c)[i]? = some e) :
    NearestTo e (Real.arctan ((1 / 2) ^ i) * 2 ^ c.frac) := by
  rcases Nat.eq_zero_or_pos i with rfl | hi
  · simpa using ctab_zero_nearest c h
  · obtain ⟨hlo, hhi⟩ := ctab_arctanSum c (e, i) (List.mk_mem_zipIdx_iff_getElem?.mpr h) hi.ne'
    have henc := arctan_enclosure (x := (1 / 2) ^ i) (by positivity) (pow_lt_one₀ (by norm_num) (by norm_num) hi.ne') 9
    exact nearestTo_of_enclosure (by simpa using henc) hlo hhi

/-- Settles O44: the entry `π / 4` by the bounds on `π`, every other entry by the alternating series of `arctan`. -/
theorem circularTableIsNearestArctan : Obligations.CircularTableIsNearestArctan := by
  intro c
  refine ⟨by cases c <;> rfl, by cases c <;> decide +kernel, fun i e h => ?_⟩
  obtain ⟨hpos, hlt⟩ := ctab_pos_lt c e (List.mem_of_getElem? h)
  exact ⟨hpos, hlt, ctab_nearest c h⟩

/-! ## The hyperbolic table (R53, R55) -/

/-- The comparison of each entry with the series of `artanh`. -/
theorem htab_artanhSum (c : Config) : ∀ h ∈ htab c, h.shift ≠ 0 ∧
    (h.value : ℚ) - 1 / 2 < artanhSum ((1 / 2) ^ h.shift) 20 * 2 ^ c.frac ∧
      (artanhSum ((1 / 2) ^ h.shift) 20 + artanhRest ((1 / 2) ^ h.shift) 20) * 2 ^ c.frac < (h.value : ℚ) + 1 / 2 := by
  cases c <;> decide +kernel

theorem htab_nearest (c : Config) {h : HEntry} (hmem : h ∈ htab c) :
    NearestTo h.value (Real.artanh ((1 / 2) ^ h.shift) * 2 ^ c.frac) := by
  obtain ⟨hshift, hlo, hhi⟩ := htab_artanhSum c h hmem
  have henc := artanh_enclosure (x := (1 / 2) ^ h.shift) (by positivity)
    (pow_lt_one₀ (by norm_num) (by norm_num) hshift) 20
  exact nearestTo_of_enclosure (by simpa using henc) hlo hhi

/-- Settles O45, by the series of `artanh` at every entry. -/
theorem hyperbolicTableIsNearestArtanh : Obligations.HyperbolicTableIsNearestArtanh := by
  intro c
  refine ⟨by cases c <;> rfl, by cases c <;> decide +kernel, by cases c <;> decide +kernel, ?_⟩
  exact fun h hmem => htab_nearest c hmem

/-! ## The gains (R56) -/

/-- `KC`; the product over `Finset.range` is by definition the product over the list of the indices. -/
theorem kC_nearest (c : Config) :
    NearestTo (kC c) (2 ^ c.frac * ∏ i ∈ Finset.range (c.frac + 1), 1 / √(1 + (1 / 4) ^ i)) := by
  have hgain := nearestTo_gain (v := kC c) (n := c.frac) (f := fun i : ℕ => 1 + (1 / 4) ^ i)
    (l := List.range (c.frac + 1)) (fun i => by positivity) (by cases c <;> decide)
    (by cases c <;> decide +kernel) (by cases c <;> decide +kernel) (by cases c <;> decide +kernel)
  push_cast at hgain
  exact hgain

theorem kH_nearest (c : Config) :
    NearestTo (kH c) (2 ^ c.frac * ((htab c).map fun h => 1 / √(1 - (1 / 4 : ℝ) ^ h.shift)).prod) := by
  have hgain := nearestTo_gain (v := kH c) (n := c.frac) (f := fun h : HEntry => 1 - (1 / 4) ^ h.shift)
    (l := htab c) (fun h => sub_nonneg.mpr (pow_le_one₀ (by norm_num) (by norm_num))) (by cases c <;> decide)
    (by cases c <;> decide +kernel) (by cases c <;> decide +kernel) (by cases c <;> decide +kernel)
  simpa using hgain

/-! ## The mathematical constants (R57) -/

theorem pi_nearest (c : Config) : NearestTo (Machine.pi c) (Real.pi * 2 ^ c.frac) :=
  nearestTo_of_enclosure pi_enclosure (by cases c <;> decide +kernel) (by cases c <;> decide +kernel)

theorem halfPi_nearest (c : Config) : NearestTo (halfPi c) (Real.pi / 2 * 2 ^ c.frac) :=
  nearestTo_of_enclosure (div_enclosure pi_enclosure 2) (by cases c <;> decide +kernel) (by cases c <;> decide +kernel)

theorem halfPiE_nearest (c : Config) : NearestTo (halfPiE c) (Real.pi / 2 * 2 ^ c.width) :=
  nearestTo_of_enclosure (div_enclosure pi_enclosure 2) (by cases c <;> decide +kernel) (by cases c <;> decide +kernel)

theorem ln2_nearest (c : Config) : NearestTo (ln2 c) (Real.log 2 * 2 ^ c.frac) :=
  nearestTo_of_enclosure log_two_enclosure (by cases c <;> decide +kernel) (by cases c <;> decide +kernel)

theorem ln2E_nearest (c : Config) : NearestTo (ln2E c) (Real.log 2 * 2 ^ c.width) :=
  nearestTo_of_enclosure log_two_enclosure (by cases c <;> decide +kernel) (by cases c <;> decide +kernel)

theorem invLn2_nearest (c : Config) : NearestTo (invLn2 c) (2 ^ c.frac / Real.log 2) :=
  nearestTo_div_of_enclosure log_two_enclosure (by cases c <;> decide) (by norm_num)
    (by cases c <;> decide +kernel) (by cases c <;> decide +kernel)

theorem invLn10_nearest (c : Config) : NearestTo (invLn10 c) (2 ^ c.frac / Real.log 10) :=
  nearestTo_div_of_enclosure log_ten_enclosure (by cases c <;> decide) (by norm_num)
    (by cases c <;> decide +kernel) (by cases c <;> decide +kernel)

/-! ## The polynomial coefficients (R58) -/

/-- The nine coefficients; both sides of each comparison are rational numbers. -/
theorem coefficients_nearest (c : Config) :
    NearestTo (c1_3 c) (2 ^ c.frac / 3) ∧ NearestTo (c1_45 c) (2 ^ c.frac / 45) ∧
    NearestTo (c2_945 c) (2 ^ c.frac * (2 / 945)) ∧ NearestTo (c1_4725 c) (2 ^ c.frac / 4725) ∧
    NearestTo (c1_6 c) (2 ^ c.frac / 6) ∧ NearestTo (c1_120 c) (2 ^ c.frac / 120) ∧
    NearestTo (c1_5040 c) (2 ^ c.frac / 5040) ∧ NearestTo (c3_40 c) (2 ^ c.frac * (3 / 40)) ∧
    NearestTo (c5_112 c) (2 ^ c.frac * (5 / 112)) := by
  simp only [nearestTo_iff]
  cases c <;> norm_num [Config.frac, c1_3, c1_45, c2_945, c1_4725, c1_6, c1_120, c1_5040, c3_40, c5_112]

/-! ## The thresholds (R59) -/

theorem tExpHi_least (c : Config) : LeastRaw c (fun x => 2 ^ (c.int - 1) ≤ Real.exp x) (tExpHi c) := by
  obtain ⟨hlo, hhi⟩ := log_two_mem_Icc
  refine leastRaw_of_iff_le (fun x => two_pow_le_exp_iff) (by cases c <;> decide) (by cases c <;> decide) ?_ ?_
  · cases c <;> norm_num [Config.int, Config.frac, tExpHi] <;> linarith
  · cases c <;> norm_num [Config.int, Config.frac, tExpHi] <;> linarith

theorem tExpLo_least (c : Config) : LeastRaw c (fun x => 1 / 2 ^ c.frac ≤ Real.exp x) (tExpLo c) := by
  obtain ⟨hlo, hhi⟩ := log_two_mem_Icc
  refine leastRaw_of_iff_le (fun x => one_div_two_pow_le_exp_iff) (by cases c <;> decide) (by cases c <;> decide) ?_ ?_
  · cases c <;> norm_num [Config.frac, tExpLo] <;> linarith
  · cases c <;> norm_num [Config.frac, tExpLo] <;> linarith

theorem tPow2Hi_least (c : Config) : LeastRaw c (fun x => 2 ^ (c.int - 1) ≤ (2 : ℝ) ^ x) (tPow2Hi c) := by
  refine leastRaw_of_iff_le (fun x => two_pow_le_rpow_iff) (by cases c <;> decide) (by cases c <;> decide) ?_ ?_
  · cases c <;> norm_num [Config.int, Config.frac, tPow2Hi]
  · cases c <;> norm_num [Config.int, Config.frac, tPow2Hi]

theorem tPow2Lo_least (c : Config) : LeastRaw c (fun x => 1 / 2 ^ c.frac ≤ (2 : ℝ) ^ x) (tPow2Lo c) := by
  refine leastRaw_of_iff_le (fun x => one_div_two_pow_le_rpow_iff) (by cases c <;> decide) (by cases c <;> decide) ?_ ?_
  · cases c <;> norm_num [Config.frac, tPow2Lo]
  · cases c <;> norm_num [Config.frac, tPow2Lo]

theorem tSinh_eq_tCosh (c : Config) : tSinh c = tCosh c := by cases c <;> rfl

/-- `T_SINH` lies far enough above `I log 2`. -/
theorem two_pow_le_sinh_tSinh (c : Config) : 2 ^ (c.int - 1) ≤ Real.sinh ((tSinh c : ℝ) / 2 ^ c.frac) := by
  obtain ⟨hlo, hhi⟩ := log_two_mem_Icc
  apply two_pow_le_sinh
  cases c <;> norm_num [Config.int, Config.frac, tSinh] <;> linarith

/-- The raw value before `T_SINH` lies far enough below `I log 2`, for `cosh` and so for `sinh`. -/
theorem cosh_lt_two_pow_tSinh_pred (c : Config) :
    Real.cosh (((tSinh c - 1 : ℤ) : ℝ) / 2 ^ c.frac) < 2 ^ (c.int - 1) := by
  obtain ⟨hlo, hhi⟩ := log_two_mem_Icc
  apply cosh_lt_two_pow
  · cases c <;> norm_num [Config.int, Config.frac, tSinh] <;> linarith
  · cases c <;> norm_num [Config.int, Config.frac, tSinh] <;> linarith

theorem tSinh_least (c : Config) : LeastRaw c (fun x => 2 ^ (c.int - 1) ≤ Real.sinh x) (tSinh c) :=
  leastRaw_of_pred (fun _ _ hxy hx => hx.trans (Real.sinh_le_sinh.mpr hxy)) (by cases c <;> decide)
    (by cases c <;> decide) (two_pow_le_sinh_tSinh c)
    (not_le.mpr ((Real.sinh_lt_cosh _).trans (cosh_lt_two_pow_tSinh_pred c)))

theorem tCosh_least (c : Config) :
    LeastRaw c (fun x => 0 ≤ x ∧ 2 ^ (c.int - 1) ≤ Real.cosh x) (tCosh c) := by
  rw [← tSinh_eq_tCosh]
  refine leastRaw_of_pred ?_ (by cases c <;> decide) (by cases c <;> decide) ⟨?_, ?_⟩ ?_
  · rintro x y hxy ⟨hx0, hx⟩
    exact ⟨hx0.trans hxy, hx.trans (Real.cosh_le_cosh.mpr (abs_le_abs_of_nonneg hx0 hxy))⟩
  · have : 0 ≤ tSinh c := by cases c <;> decide
    positivity
  · exact (two_pow_le_sinh_tSinh c).trans (Real.sinh_lt_cosh _).le
  · exact fun h => (cosh_lt_two_pow_tSinh_pred c).not_ge h.2

/-- Settles O46: the gains by their squares, the constants by rational enclosures of `π`, `log 2` and `log 10`, the thresholds by
the multiple of `log 2` that each lies just above. -/
theorem gainsOfTheIterationsExecuted : Obligations.GainsOfTheIterationsExecuted := by
  refine ⟨fun c => ⟨kC_nearest c, kH_nearest c⟩, fun c => ?constants, ⟨rfl, rfl⟩, coefficients_nearest, fun c => ?thresholds,
    fun c => ?parameters⟩
  case constants =>
    exact ⟨pi_nearest c, halfPi_nearest c, ln2_nearest c, invLn2_nearest c, invLn10_nearest c, halfPiE_nearest c,
      ln2E_nearest c⟩
  case thresholds =>
    exact ⟨tExpHi_least c, tExpLo_least c, tPow2Hi_least c, tPow2Lo_least c, tSinh_least c, tCosh_least c,
      tSinh_eq_tCosh c, by cases c <;> rfl⟩
  case parameters =>
    exact ⟨rfl, rfl, rfl, rfl, by cases c <;> rfl⟩

end Sys2Proof.Machine
end

section
/-! SUPPORT. Facts of the decoder and the encoder (30_encoding.md rules R72 to R78): what the decoder can answer, said once, and which
result fields a format writes. -/

namespace Sys2Proof.Machine

open Sys2Proof.Laws

/-! ## The encoder -/

/-- The per-command facts about the encoder, for every command. -/
theorem encodeDecode : ∀ i : Instr, EncodeDecode.Statement i
  | .add .. => EncodeDecode.add .. | .sub .. => EncodeDecode.sub .. | .mul .. => EncodeDecode.mul ..
  | .div .. => EncodeDecode.div .. | .shl .. => EncodeDecode.shl .. | .shr .. => EncodeDecode.shr ..
  | .crot .. => EncodeDecode.crot .. | .cvec .. => EncodeDecode.cvec ..
  | .hrot .. => EncodeDecode.hrot .. | .hvec .. => EncodeDecode.hvec ..
  | .sin _ => EncodeDecode.sin _ | .cos _ => EncodeDecode.cos _ | .tan _ => EncodeDecode.tan _
  | .sincos _ => EncodeDecode.sincos _ | .atan _ => EncodeDecode.atan _ | .atan2 .. => EncodeDecode.atan2 ..
  | .asin _ => EncodeDecode.asin _ | .acos _ => EncodeDecode.acos _
  | .sinh _ => EncodeDecode.sinh _ | .cosh _ => EncodeDecode.cosh _ | .tanh _ => EncodeDecode.tanh _
  | .sinhcosh _ => EncodeDecode.sinhcosh _ | .asinh _ => EncodeDecode.asinh _ | .acosh _ => EncodeDecode.acosh _
  | .atanh _ => EncodeDecode.atanh _ | .acoth _ => EncodeDecode.acoth _ | .coth _ => EncodeDecode.coth _
  | .exp _ => EncodeDecode.exp _ | .pow2 _ => EncodeDecode.pow2 _ | .ln _ => EncodeDecode.ln _
  | .log2 _ => EncodeDecode.log2 _ | .log10 _ => EncodeDecode.log10 _ | .sqrt _ => EncodeDecode.sqrt _

theorem decode_encode (i : Instr) : decode (encode i) = .command i := (encodeDecode i).1

@[simp] theorem encode_opc (i : Instr) : (encode i).opc = i.opcode := (encodeDecode i).2

/-- The encoder writes the operands of the command and zeros, so that its fields fit when the operands do. -/
@[simp] theorem encode_wellFormed (c : Config) (i : Instr) : (encode i).wellFormed c = i.wellFormed c := by
  cases i <;> simp [encode, Command.wellFormed, Instr.wellFormed, Instr.operands, Bool.and_assoc]

/-! ## The decoder -/

/-- The fields that a command of the format reads, with zeros for those it does not (R72, R76). -/
def readFields : Format → Command → Command
  | .u1, cmd => { cmd with b := 0, c := 0 }
  | .u2, cmd => { cmd with b := 0, c := 0 }
  | .b1, cmd => { cmd with c := 0 }
  | .t3, cmd => cmd

@[simp] theorem readFields_opc (f : Format) (cmd : Command) : (readFields f cmd).opc = cmd.opc := by
  cases f <;> rfl

theorem readFields_wellFormed {c : Config} {cmd : Command} (f : Format) (h : cmd.wellFormed c = true) :
    (readFields f cmd).wellFormed c = true := by
  obtain ⟨ha, hb, hc⟩ := Command.wellFormed_iff.mp h
  cases f <;> simp [readFields, Command.wellFormed_iff, ha, hb, hc]

/-- The ranges of opcodes that rule R77 names illegal. -/
abbrev IllegalOpcode (opc : BitVec 8) : Prop :=
  opc = 0 ∨ (0x07 ≤ opc ∧ opc ≤ 0x0F) ∨ (0x14 ≤ opc ∧ opc ≤ 0x1F) ∨ (0x28 ≤ opc ∧ opc ≤ 0x2F) ∨
    (0x39 ≤ opc ∧ opc ≤ 0x3F) ∨ (0x45 ≤ opc ∧ opc ≤ 0x4F) ∨ 0x51 ≤ opc

theorem opcode_not_illegal (i : Instr) : ¬ IllegalOpcode i.opcode := by
  cases i <;> rw [Instr.opcode] <;> decide

/-- What the decoder can answer (R78): the command whose encoding is the fields read, or a rejection of an illegal opcode. -/
theorem decode_cases (cmd : Command) :
    (∃ i, decode cmd = .command i ∧ encode i = readFields i.format cmd) ∨
    (decode cmd = .rejected (.illegalOpcode cmd.opc) ∧ IllegalOpcode cmd.opc) := by
  have hopc {n : ℕ} (h : cmd.opc.toNat = n) : BitVec.ofNat 8 n = cmd.opc := by simp [← h]
  unfold decode
  split
  case h_34 =>
    refine .inr ⟨rfl, ?_⟩
    simp only [imp_false] at *
    unfold IllegalOpcode
    bv_omega
  all_goals
    rename_i h
    exact .inl ⟨_, rfl, Command.eq_of_fields (hopc h) rfl rfl rfl⟩

/-- A beat decodes to a command exactly when the fields that the command's format reads are those of its encoding. -/
theorem decode_eq_command_iff {cmd : Command} {i : Instr} :
    decode cmd = .command i ↔ encode i = readFields i.format cmd := by
  constructor
  · intro h
    rcases decode_cases cmd with ⟨j, hj, henc⟩ | ⟨hrej, -⟩
    · obtain rfl : j = i := Decoded.command.inj (hj.symm.trans h)
      exact henc
    · cases hrej.symm.trans h
  · intro h
    obtain ⟨opc, a, b, d⟩ := cmd
    cases i <;> cases h <;> rfl

/-- The opcode of a command that a beat decodes to is that of the beat. -/
theorem opcode_of_decode {cmd : Command} {i : Instr} (h : decode cmd = .command i) : i.opcode = cmd.opc := by
  rw [← encode_opc, decode_eq_command_iff.mp h, readFields_opc]

/-- R77: a beat is rejected exactly when its opcode is in one of the illegal ranges. -/
theorem decode_rejected_iff {cmd : Command} :
    decode cmd = .rejected (.illegalOpcode cmd.opc) ↔ IllegalOpcode cmd.opc := by
  rcases decode_cases cmd with ⟨i, hi, -⟩ | ⟨hrej, hill⟩
  · have hlegal : ¬ IllegalOpcode cmd.opc := opcode_of_decode hi ▸ opcode_not_illegal i
    simp [hi, hlegal]
  · simp [hrej, hill]

/-- R76: beats that agree in the fields the format reads are answered alike. -/
theorem execCommand_congr {c : Config} {cmd cmd' : Command} {i : Instr} (h : decode cmd = .command i)
    (hread : readFields i.format cmd' = readFields i.format cmd) : execCommand c cmd' = execCommand c cmd := by
  have h' : decode cmd' = .command i := by rw [decode_eq_command_iff, hread, ← decode_eq_command_iff, h]
  simp [execCommand, h, h']

/-! ## The result fields that a format does not write (R72, R76) -/

theorem raise_or_one_unwritten {c : Config} {p : Prop} [Decidable p] (e : Err) (v : Int) :
    (if p then Response.raise e else Response.one c v).r1 = 0 ∧
    (if p then Response.raise e else Response.one c v).r2 = 0 := by
  split <;> exact ⟨rfl, rfl⟩

theorem respond_one_result {c : Config} {i : Instr} (hf : i.format = .u1 ∨ i.format = .b1) :
    (respond c i).r1 = 0 ∧ (respond c i).r2 = 0 := by
  cases i with
  | sincos | sinhcosh | crot | cvec | hrot | hvec => simp [Instr.format] at hf
  | div | asin | acos | acosh | atanh | acoth | coth | ln | log2 | log10 | sqrt => exact raise_or_one_unwritten ..
  | add | sub | mul | shl | shr | sin | cos | tan | atan | atan2 | sinh | cosh | tanh | asinh | exp | pow2 =>
    exact ⟨rfl, rfl⟩

theorem respond_two_results {c : Config} {i : Instr} (hf : i.format = .u2) : (respond c i).r2 = 0 := by
  cases i with
  | sincos | sinhcosh => rfl
  | _ => cases hf

end Sys2Proof.Machine
end

section
/-! SUPPORT. The statements about the encoding (30_encoding.md). -/

namespace Sys2Proof.Machine

/-- Settles O47: on well-formed beats `Command.ofBeat` undoes `Command.toBeat`, and `decode` undoes `encode`. -/
theorem decodeEncodeAgree : Obligations.DecodeEncodeAgree := by
  refine ⟨fun c i hi => ?_, fun c beat i hdec => ⟨?_, ?_⟩, fun c cmd hcmd => ?_⟩
  · have hfields : Command.ofBeat c (encodeBeat c i) = encode i := Command.ofBeat_toBeat (by simpa using hi)
    rw [decodeBeat, hfields, decode_encode]
  · rw [← encode_wellFormed, decode_eq_command_iff.mp hdec]
    exact readFields_wellFormed _ (Command.ofBeat_wellFormed c beat)
  · exact (opcode_of_decode hdec).symm
  · have h := Command.ofBeat_toBeat hcmd
    exact ⟨congrArg Command.opc h, congrArg Command.a h, congrArg Command.b h, congrArg Command.c h, h⟩

/-- Settles O48, by evaluation of the decoder on each of the eight beats. -/
theorem decodesBeatsOfTheSpec : Obligations.DecodesBeatsOfTheSpec :=
  ⟨rfl, rfl, rfl, rfl, rfl, rfl, rfl, rfl⟩

/-- Settles O49. -/
theorem illegalOpcodesAnswered : Obligations.IllegalOpcodesAnswered := by
  refine ⟨fun cmd => decode_rejected_iff, fun s hp hr hrej => ?_⟩
  have hexec : execCommand s.cfg s.cmdQ = Response.raise .illegalOp := by simp [execCommand, hrej]
  rw [step_of_busy hp hr, hexec]
  rfl

/-- Settles O50: the fields by `execCommand_congr`, the results by the format of the decoded command. -/
theorem unreadFieldsIgnored : Obligations.UnreadFieldsIgnored := by
  intro c cmd i hdec
  have hresp : execCommand c cmd = respond c i := by simp [execCommand, hdec]
  refine ⟨fun b d hf => ?_, fun d hf => ?_, fun hf => ?_, fun hf => ?_⟩
  · apply execCommand_congr hdec
    rcases hf with hf | hf <;> rw [hf] <;> rfl
  · apply execCommand_congr hdec
    rw [hf]
    rfl
  · exact hresp ▸ respond_one_result hf
  · exact hresp ▸ respond_two_results hf

end Sys2Proof.Machine
end

section
/-! SUPPORT. Facts of the primitive commands (40_primitives.md rules R90 to R99): rounding as a rational floor, the clamp, and one
equation per command for its response. -/

namespace Sys2Proof.Machine

/-! ## Rounding (R90, R92, R93) -/

/-- An arithmetic shift to the right rounds the rational quotient down (R90). -/
theorem asr_eq_floor (a : ℤ) (n : ℕ) : asr a n = ⌊(a : ℚ) / 2 ^ n⌋ := by
  simpa [asr] using (Rat.floor_intCast_div_natCast a (2 ^ n)).symm

/-- Floor division rounds the rational quotient down at every sign combination (R93). -/
theorem floorDiv_eq_floor (a b : ℤ) : floorDiv a b = ⌊(a : ℚ) / b⌋ := by
  obtain ⟨n, rfl | rfl⟩ := b.eq_nat_or_neg
  · rw [floorDiv, Int.fdiv_eq_ediv_of_nonneg a n.cast_nonneg]
    exact (Rat.floor_intCast_div_natCast a n).symm
  · rw [floorDiv, ← neg_neg a, Int.neg_fdiv_neg, Int.fdiv_eq_ediv_of_nonneg _ n.cast_nonneg]
    simpa [div_neg, neg_div] using (Rat.floor_intCast_div_natCast (-a) n).symm

theorem fmul_eq_floor (c : Config) (a b : ℤ) : fmul c a b = ⌊((a : ℚ) * b) / 2 ^ c.frac⌋ := by
  simp [fmul, asr_eq_floor]

theorem fdiv_eq_floor (c : Config) (a b : ℤ) : fdiv c a b = ⌊((a : ℚ) * 2 ^ c.frac) / b⌋ := by
  simp [fdiv, floorDiv_eq_floor, shl]

theorem fmul_comm (c : Config) (a b : ℤ) : fmul c a b = fmul c b a := by
  rw [fmul, fmul, mul_comm]

/-- A shift to the right undoes the multiplication by the power of two. -/
theorem asr_mul_two_pow (a : ℤ) (n : ℕ) : asr (a * 2 ^ n) n = a :=
  Int.mul_ediv_cancel a (by positivity)

theorem fmul_one (c : Config) (a : ℤ) : fmul c a (one c) = a :=
  asr_mul_two_pow a c.frac

theorem oneRaw_pos (c : Config) : 0 < one c := by cases c <;> decide

theorem fdiv_one (c : Config) (a : ℤ) : fdiv c a (one c) = a := by
  rw [fdiv, floorDiv_of_pos _ (oneRaw_pos c)]
  exact asr_mul_two_pow a c.frac

/-- A product with a power of two from `ONE` up is exact. -/
theorem fmul_two_pow_add (c : Config) (a : ℤ) (n : ℕ) : fmul c a (2 ^ (c.frac + n)) = a * 2 ^ n := by
  rw [fmul, add_comm, pow_add, ← mul_assoc, asr_mul_two_pow]

/-- A product with a power of two up to `ONE` is a shift to the right: the common factor cancels before the rounding. -/
theorem fmul_two_pow_sub {c : Config} {n : ℕ} (hn : n ≤ c.frac) (a : ℤ) : fmul c a (2 ^ (c.frac - n)) = asr a n := by
  have hsplit : (2 : ℤ) ^ c.frac = 2 ^ n * 2 ^ (c.frac - n) := by rw [← pow_add, Nat.add_sub_cancel' hn]
  rw [fmul, asr, hsplit]
  exact Int.mul_ediv_mul_of_pos_left a (2 ^ n) (by positivity)

/-! ## The clamp (R91) -/

theorem clamp_mem (c : Config) (v : ℤ) : minRaw c ≤ clamp c v ∧ clamp c v ≤ maxRaw c := by
  obtain ⟨hlo, hhi, -⟩ := sat_spec c v
  exact sat_eq_clamp c v ▸ ⟨hlo, hhi⟩

theorem clamp_of_mem {c : Config} {v : ℤ} (hlo : minRaw c ≤ v) (hhi : v ≤ maxRaw c) : clamp c v = v := by
  obtain ⟨-, -, hsat⟩ := sat_spec c v
  rw [← sat_eq_clamp, hsat hlo hhi]

theorem clamp_of_maxRaw_le {c : Config} {v : ℤ} (h : maxRaw c ≤ v) : clamp c v = maxRaw c := by
  rw [clamp, min_eq_left h, max_eq_right (minRaw_le_maxRaw c)]

theorem clamp_of_le_minRaw {c : Config} {v : ℤ} (h : v ≤ minRaw c) : clamp c v = minRaw c := by
  rw [clamp, min_eq_right (h.trans (minRaw_le_maxRaw c)), max_eq_left h]

theorem minRaw_nonpos (c : Config) : minRaw c ≤ 0 := by cases c <;> decide

theorem maxRaw_nonneg (c : Config) : 0 ≤ maxRaw c := by cases c <;> decide

/-! ## Shifts by any unsigned count (R98, R99) -/

/-- `2^W` lies beyond both ends of the type, and so does every larger power of two. -/
theorem range_lt_two_pow {c : Config} {n : ℕ} (hn : c.width ≤ n) : maxRaw c < 2 ^ n ∧ -2 ^ n < minRaw c := by
  have hends : maxRaw c < 2 ^ c.width ∧ -2 ^ c.width < minRaw c := by cases c <;> decide
  have hpow : (2 : ℤ) ^ c.width ≤ 2 ^ n := pow_le_pow_right₀ (by norm_num) hn
  omega

/-- The three branches of SHL are one formula: from `W` up the product of a nonzero value lies outside the type (R98). -/
theorem shlValue_eq_clamp (c : Config) (a : ℤ) (n : ℕ) : shlValue c a n = clamp c (a * 2 ^ n) := by
  have hpow : (0 : ℤ) < 2 ^ n := by positivity
  unfold shlValue
  split_ifs with hzero hwide hpos
  · rw [hzero, zero_mul, clamp_of_mem (minRaw_nonpos c) (maxRaw_nonneg c)]
  · obtain ⟨hmax, -⟩ := range_lt_two_pow hwide
    have hprod : 2 ^ n ≤ a * 2 ^ n := le_mul_of_one_le_left hpow.le hpos
    exact (clamp_of_maxRaw_le (hmax.le.trans hprod)).symm
  · obtain ⟨-, hmin⟩ := range_lt_two_pow hwide
    have hprod : a * 2 ^ n ≤ -2 ^ n := by nlinarith [show a ≤ -1 by omega]
    exact (clamp_of_le_minRaw (hprod.trans hmin.le)).symm
  · exact sat_eq_clamp c _

/-- The branches of SHR are one formula for a raw value: from `W` up the quotient lies in `[-1, 1)` (R99). -/
theorem shrValue_eq_asr {c : Config} {a : ℤ} (hlo : minRaw c ≤ a) (hhi : a ≤ maxRaw c) (n : ℕ) :
    shrValue c a n = asr a n := by
  unfold shrValue
  split_ifs with hwide hsign
  · obtain ⟨hmax, -⟩ := range_lt_two_pow hwide
    exact (Int.ediv_eq_zero_of_lt hsign (hhi.trans_lt hmax)).symm
  · obtain ⟨-, hmin⟩ := range_lt_two_pow hwide
    exact (Int.ediv_eq_neg_one_of_neg_of_le (by omega) (by omega)).symm
  · rfl

/-- A shift to the right moves a value toward 0, or from below 0 to -1 at most, so that it stays in the type (R99). -/
theorem asr_mem {c : Config} {a : ℤ} (hlo : minRaw c ≤ a) (hhi : a ≤ maxRaw c) (n : ℕ) :
    minRaw c ≤ asr a n ∧ asr a n ≤ maxRaw c := by
  have hpow : (1 : ℤ) ≤ 2 ^ n := one_le_pow₀ (by norm_num)
  have hmin : minRaw c * 2 ^ n ≤ minRaw c := mul_le_of_one_le_right (minRaw_nonpos c) hpow
  have hmax : maxRaw c ≤ maxRaw c * 2 ^ n := le_mul_of_one_le_right (maxRaw_nonneg c) hpow
  constructor
  · exact Int.le_ediv_of_mul_le (by omega) (hmin.trans hlo)
  · exact Int.ediv_le_of_le_mul (by omega) (hhi.trans hmax)

/-! ## Words (R12) -/

@[simp] theorem word_zero (c : Config) : word c 0 = 0 := by cases c <;> decide

/-- A power of two that is a raw value is that of its word. -/
theorem signed_word_two_pow {c : Config} {m : ℕ} (hm : (2 : ℤ) ^ m ≤ maxRaw c) : signed c (word c (2 ^ m)) = 2 ^ m :=
  signed_word c _ ((minRaw_nonpos c).trans (by positivity)) hm

theorem signed_word_one (c : Config) : signed c (word c (one c)) = one c :=
  signed_word_two_pow (by cases c <;> decide)

/-- A count of `W` bits is read back as it is. -/
theorem unsigned_ofNat {c : Config} {n : ℕ} (hn : n < 2 ^ c.width) : unsigned c (BitVec.ofNat 64 n) = n := by
  rw [unsigned, BitVec.setWidth_ofNat_of_le (width_le c), BitVec.toNat_ofNat, Nat.mod_eq_of_lt hn]

/-- A response with the raw value of a word holds that word. -/
theorem Response.one_signed {c : Config} {a : Word} (ha : Word.fits c a = true) :
    Response.one c (signed c a) = { err := .none, r0 := a, r1 := 0, r2 := 0 } := by
  rw [Response.one, word_signed c a ha]

/-! ## The responses (R94 to R99) -/

section Responses
variable (c : Config) (a b : Word)

theorem respond_add : respond c (.add a b) = Response.one c (clamp c (signed c a + signed c b)) :=
  congrArg (Response.one c) (sat_eq_clamp c _)

theorem respond_sub : respond c (.sub a b) = Response.one c (clamp c (signed c a - signed c b)) :=
  congrArg (Response.one c) (sat_eq_clamp c _)

theorem respond_mul : respond c (.mul a b) = Response.one c (clamp c (fmul c (signed c a) (signed c b))) :=
  congrArg (Response.one c) (sat_eq_clamp c _)

theorem respond_div :
    respond c (.div a b) =
      if signed c b = 0 then Response.raise .divByZero
      else Response.one c (clamp c (fdiv c (signed c a) (signed c b))) := by
  rw [← sat_eq_clamp]
  rfl

theorem respond_shl : respond c (.shl a b) = Response.one c (clamp c (signed c a * 2 ^ unsigned c b)) :=
  congrArg (Response.one c) (shlValue_eq_clamp c _ _)

theorem respond_shr : respond c (.shr a b) = Response.one c (asr (signed c a) (unsigned c b)) := by
  obtain ⟨hlo, hhi⟩ := signed_spec c a
  exact congrArg (Response.one c) (shrValue_eq_asr hlo hhi _)

end Responses

/-! ## From responses to answers, from encodings to readings -/

/-- A command answers one value when its response is that raw value: the rest of the state is as `exec_eq_answered` says. -/
theorem answersOne_of_respond {i : Instr} {s : State} {v : ℤ} (hresp : respond s.cfg i = Response.one s.cfg v)
    (hv : minRaw s.cfg ≤ v ∧ v ≤ maxRaw s.cfg) : AnswersOne i s v := by
  refine ⟨hv.1, hv.2, ?_⟩
  rw [exec_eq_answered, hresp]
  rfl

theorem answersOne_clamp {i : Instr} {s : State} {v : ℤ} (hresp : respond s.cfg i = Response.one s.cfg (clamp s.cfg v)) :
    AnswersOne i s (clamp s.cfg v) :=
  answersOne_of_respond hresp (clamp_mem s.cfg v)

theorem answersError_of_respond {i : Instr} {s : State} {e : Err} (hresp : respond s.cfg i = Response.raise e) :
    AnswersError i s e := by
  rw [AnswersError, exec_eq_answered, hresp]
  rfl

/-- A command of format B1 is read from every beat with the opcode of its encoding (R72, R76). -/
theorem readsAB_of_encode {opc : BitVec 8} {mk : Word → Word → Instr} (henc : ∀ a b, encode (mk a b) = ⟨opc, a, b, 0⟩)
    (hformat : ∀ a b, (mk a b).format = .b1) : ReadsAB opc mk := by
  intro cmd hopc
  rw [decode_eq_command_iff, henc, hformat, ← hopc]
  rfl

end Sys2Proof.Machine
end

section
/-! SUPPORT. The statements about the primitive commands (40_primitives.md). -/

namespace Sys2Proof.Machine

/-! ## The six commands -/

/-- Settles O1. -/
theorem addSaturates : Obligations.AddSaturates :=
  ⟨readsAB_of_encode (fun _ _ => rfl) (fun _ _ => rfl), fun _ _ _ => answersOne_clamp (respond_add ..)⟩

/-- Settles O2. -/
theorem subSaturates : Obligations.SubSaturates :=
  ⟨readsAB_of_encode (fun _ _ => rfl) (fun _ _ => rfl), fun _ _ _ => answersOne_clamp (respond_sub ..)⟩

/-- Settles O3: `fmul` is the floor of the rational product. -/
theorem mulFloorsAndSaturates : Obligations.MulFloorsAndSaturates := by
  refine ⟨readsAB_of_encode (fun _ _ => rfl) (fun _ _ => rfl), fun s a b => answersOne_clamp ?_⟩
  rw [respond_mul, fmul_eq_floor]

/-- Settles O4: `fdiv` is the floor of the rational quotient, of either sign. -/
theorem divFloorsAndSaturates : Obligations.DivFloorsAndSaturates := by
  refine ⟨readsAB_of_encode (fun _ _ => rfl) (fun _ _ => rfl), fun s a b =>
    ⟨fun hzero => answersError_of_respond ?_, fun hne => answersOne_clamp ?_⟩⟩
  · rw [respond_div, if_pos hzero]
  · rw [respond_div, if_neg hne, fdiv_eq_floor]

/-- Settles O5. -/
theorem shlSaturatesExactly : Obligations.ShlSaturatesExactly :=
  ⟨readsAB_of_encode (fun _ _ => rfl) (fun _ _ => rfl), fun _ _ _ => answersOne_clamp (respond_shl ..)⟩

/-- Settles O6: the floor of a quotient of a raw value by a power of two is a raw value. -/
theorem shrFloors : Obligations.ShrFloors := by
  refine ⟨readsAB_of_encode (fun _ _ => rfl) (fun _ _ => rfl), fun s a b => ?_⟩
  obtain ⟨hlo, hhi⟩ := signed_spec s.cfg a
  rw [← asr_eq_floor]
  exact answersOne_of_respond (respond_shr ..) (asr_mem hlo hhi _)

/-! ## The identities of R103 -/

section Identities
variable {c : Config}

theorem respond_add_comm (c : Config) (a b : Word) : respond c (.add a b) = respond c (.add b a) := by
  rw [respond_add, respond_add, add_comm]

theorem respond_mul_comm (c : Config) (a b : Word) : respond c (.mul a b) = respond c (.mul b a) := by
  rw [respond_mul, respond_mul, fmul_comm]

theorem respond_sub_self (c : Config) (a : Word) :
    respond c (.sub a a) = { err := .none, r0 := 0, r1 := 0, r2 := 0 } := by
  rw [respond_sub, sub_self, clamp_of_mem (minRaw_nonpos c) (maxRaw_nonneg c), Response.one, word_zero]

/-- The clamp leaves a raw value as it is, so that its word comes back. -/
theorem Response.one_clamp_signed {a : Word} (ha : Word.fits c a = true) :
    Response.one c (clamp c (signed c a)) = { err := .none, r0 := a, r1 := 0, r2 := 0 } := by
  obtain ⟨hlo, hhi⟩ := signed_spec c a
  rw [clamp_of_mem hlo hhi, Response.one_signed ha]

theorem respond_mul_one {a : Word} (ha : Word.fits c a = true) :
    respond c (.mul a (word c (one c))) = { err := .none, r0 := a, r1 := 0, r2 := 0 } := by
  rw [respond_mul, signed_word_one, fmul_one, Response.one_clamp_signed ha]

theorem respond_div_one {a : Word} (ha : Word.fits c a = true) :
    respond c (.div a (word c (one c))) = { err := .none, r0 := a, r1 := 0, r2 := 0 } := by
  rw [respond_div, signed_word_one, if_neg (oneRaw_pos c).ne', fdiv_one, Response.one_clamp_signed ha]

/-- A power of two that is a raw value has an exponent below `W`, so that it is a count of `W` bits. -/
theorem lt_two_pow_width_of_two_pow_le {m n : ℕ} (hm : (2 : ℤ) ^ m ≤ maxRaw c) (hn : n ≤ m) : n < 2 ^ c.width := by
  have hlt : m < c.width := by
    by_contra! hle
    exact absurd hm (range_lt_two_pow hle).1.not_ge
  exact (hn.trans_lt hlt).trans Nat.lt_two_pow_self

theorem respond_shl_eq_mul {n : ℕ} (hn : (2 : ℤ) ^ (c.frac + n) ≤ maxRaw c) (a : Word) :
    respond c (.shl a (BitVec.ofNat 64 n)) = respond c (.mul a (word c (2 ^ (c.frac + n)))) := by
  have hcount : n < 2 ^ c.width := lt_two_pow_width_of_two_pow_le hn (Nat.le_add_left n c.frac)
  rw [respond_shl, respond_mul, unsigned_ofNat hcount, signed_word_two_pow hn, fmul_two_pow_add]

theorem respond_shr_eq_fmul {n : ℕ} (hn : n ≤ c.frac) (a : Word) :
    (respond c (.shr a (BitVec.ofNat 64 n))).r0 = word c (fmul c (signed c a) (2 ^ (c.frac - n))) := by
  have hcount : n < 2 ^ c.width :=
    (hn.trans_lt Nat.lt_two_pow_self).trans_le (Nat.pow_le_pow_right (by norm_num) (Nat.le_add_left _ _))
  rw [respond_shr, unsigned_ofNat hcount, fmul_two_pow_sub hn, Response.one]

theorem respond_shr_respond_shl {n : ℕ} {a : Word} (hn : n < 2 ^ c.width) (ha : Word.fits c a = true)
    (hlo : minRaw c ≤ signed c a * 2 ^ n) (hhi : signed c a * 2 ^ n ≤ maxRaw c) :
    respond c (.shr (respond c (.shl a (BitVec.ofNat 64 n))).r0 (BitVec.ofNat 64 n)) =
      { err := .none, r0 := a, r1 := 0, r2 := 0 } := by
  have hshl : (respond c (.shl a (BitVec.ofNat 64 n))).r0 = word c (signed c a * 2 ^ n) := by
    rw [respond_shl, unsigned_ofNat hn, clamp_of_mem hlo hhi, Response.one]
  rw [hshl, respond_shr, signed_word c _ hlo hhi, unsigned_ofNat hn, asr_mul_two_pow, Response.one_signed ha]

end Identities

/-- Settles O7. -/
theorem primitiveIdentities : Obligations.PrimitiveIdentities := fun c a b =>
  ⟨respond_add_comm c a b, respond_mul_comm c a b, respond_sub_self c a,
    fun ha => ⟨respond_mul_one ha, respond_div_one ha⟩,
    fun _ hn => respond_shl_eq_mul hn a,
    fun _ hn => respond_shr_eq_fmul hn a,
    fun _ hn ha hlo hhi => respond_shr_respond_shl hn ha hlo hhi⟩

end Sys2Proof.Machine
end

section
/-! SUPPORT. Facts of the CORDIC engine (41_cordic_engine.md rules R110 to R125): the registers after each number of iterations, and
how far one iteration and a whole run can move them. -/

namespace Sys2Proof.Machine

/-! ## The registers after a number of iterations (R110, R124) -/

/-- The registers after the first `k` iterations of a run over the table `l`. -/
def afterIters (iter : Xyz → HEntry → Xyz) (l : List HEntry) (v : Xyz) (k : ℕ) : Xyz := (l.take k).foldl iter v

section Iterations
variable (iter : Xyz → HEntry → Xyz) {l : List HEntry} (v : Xyz)

@[simp] theorem afterIters_zero : afterIters iter l v 0 = v := by simp [afterIters]

/-- Iteration `k` reads entry `k` of the table and the registers that the iterations before it left. -/
theorem afterIters_succ {k : ℕ} {h : HEntry} (hk : l[k]? = some h) :
    afterIters iter l v (k + 1) = iter (afterIters iter l v k) h := by
  simp [afterIters, List.take_add_one, hk, List.foldl_append]

/-- As many iterations as the table has entries are the whole run. -/
theorem foldl_eq_afterIters {n : ℕ} (hn : l.length = n) : l.foldl iter v = afterIters iter l v n := by
  rw [afterIters, ← hn, List.take_length]

end Iterations

/-! ## The tables (R53) -/

theorem circSteps_length (c : Config) : (circSteps c).length = c.frac + 1 := by
  obtain ⟨hlen, -⟩ := circularTableIsNearestArctan c
  rw [circSteps, List.length_mapIdx, hlen]

theorem htab_length (c : Config) : (htab c).length = c.frac + 2 := by
  obtain ⟨hlen, -⟩ := hyperbolicTableIsNearestArtanh c
  exact hlen

/-- Circular iteration `i` shifts by `i` and reads `CTAB[i]`. -/
theorem circSteps_getElem? {c : Config} {i : ℕ} (hi : i < c.frac + 1) :
    (circSteps c)[i]? = some { shift := i, value := (ctab c).getD i 0 } := by
  have hlen : i < (ctab c).length := by
    obtain ⟨hlen, -⟩ := circularTableIsNearestArctan c
    omega
  simp [circSteps, List.getElem?_eq_getElem hlen]

/-! ## The counted loops (R114 to R117, R124) -/

section Loops
variable (c : Config) (iter : Xyz → HEntry → Xyz) (v : Xyz)

theorem circular_loop :
    ∃ t : ℕ → Xyz, t 0 = v ∧
      (∀ i, i < c.frac + 1 → t (i + 1) = iter (t i) { shift := i, value := (ctab c).getD i 0 }) ∧
      (circSteps c).foldl iter v = t (c.frac + 1) :=
  ⟨afterIters iter (circSteps c) v, afterIters_zero .., fun _ hi => afterIters_succ _ _ (circSteps_getElem? hi),
    foldl_eq_afterIters _ _ (circSteps_length c)⟩

theorem hyperbolic_loop :
    ∃ t : ℕ → Xyz, t 0 = v ∧
      (∀ j, j < c.frac + 2 → ∃ h : HEntry, (htab c)[j]? = some h ∧ t (j + 1) = iter (t j) h) ∧
      (htab c).foldl iter v = t (c.frac + 2) := by
  refine ⟨afterIters iter (htab c) v, afterIters_zero .., fun j hj => ?_, foldl_eq_afterIters _ _ (htab_length c)⟩
  have hentry := List.getElem?_eq_getElem (hj.trans_eq (htab_length c).symm)
  exact ⟨_, hentry, afterIters_succ _ _ hentry⟩

end Loops

/-! ## One iteration with its shifts as rational floors (R111, R113) -/

section Floors
variable (v : Xyz) (h : HEntry)

theorem crotIter_eq_floor :
    crotIter v h =
      if v.2.2 ≥ 0 then
        (v.1 - ⌊(v.2.1 : ℚ) / 2 ^ h.shift⌋, v.2.1 + ⌊(v.1 : ℚ) / 2 ^ h.shift⌋, v.2.2 - h.value)
      else
        (v.1 + ⌊(v.2.1 : ℚ) / 2 ^ h.shift⌋, v.2.1 - ⌊(v.1 : ℚ) / 2 ^ h.shift⌋, v.2.2 + h.value) := by
  simp only [crotIter, circPlus, circMinus, asr_eq_floor]

theorem cvecIter_eq_floor :
    cvecIter v h =
      if v.2.1 < 0 then
        (v.1 - ⌊(v.2.1 : ℚ) / 2 ^ h.shift⌋, v.2.1 + ⌊(v.1 : ℚ) / 2 ^ h.shift⌋, v.2.2 - h.value)
      else
        (v.1 + ⌊(v.2.1 : ℚ) / 2 ^ h.shift⌋, v.2.1 - ⌊(v.1 : ℚ) / 2 ^ h.shift⌋, v.2.2 + h.value) := by
  simp only [cvecIter, circPlus, circMinus, asr_eq_floor]

theorem hrotIter_eq_floor :
    hrotIter v h =
      if v.2.2 ≥ 0 then
        (v.1 + ⌊(v.2.1 : ℚ) / 2 ^ h.shift⌋, v.2.1 + ⌊(v.1 : ℚ) / 2 ^ h.shift⌋, v.2.2 - h.value)
      else
        (v.1 - ⌊(v.2.1 : ℚ) / 2 ^ h.shift⌋, v.2.1 - ⌊(v.1 : ℚ) / 2 ^ h.shift⌋, v.2.2 + h.value) := by
  simp only [hrotIter, hypPlus, hypMinus, asr_eq_floor]

theorem hvecIter_eq_floor :
    hvecIter v h =
      if v.2.1 < 0 then
        (v.1 + ⌊(v.2.1 : ℚ) / 2 ^ h.shift⌋, v.2.1 + ⌊(v.1 : ℚ) / 2 ^ h.shift⌋, v.2.2 - h.value)
      else
        (v.1 - ⌊(v.2.1 : ℚ) / 2 ^ h.shift⌋, v.2.1 - ⌊(v.1 : ℚ) / 2 ^ h.shift⌋, v.2.2 + h.value) := by
  simp only [hvecIter, hypPlus, hypMinus, asr_eq_floor]

end Floors

/-! ## How far one iteration moves the registers (R125) -/

/-- What the four iterations have in common: `x` moves by the shifted `y`, `y` by the shifted `x`, `z` by the table entry, each up or
down. -/
def Moves (h : HEntry) (v w : Xyz) : Prop :=
  (w.1 - v.1).natAbs = (asr v.2.1 h.shift).natAbs ∧ (w.2.1 - v.2.1).natAbs = (asr v.1 h.shift).natAbs ∧
    (w.2.2 - v.2.2).natAbs = h.value.natAbs

/-- Whichever direction the sign test chooses (R111). -/
theorem Moves.ite {p : Prop} [Decidable p] {h : HEntry} {v w w' : Xyz} (hw : Moves h v w) (hw' : Moves h v w') :
    Moves h v (if p then w else w') := by
  split
  · exact hw
  · exact hw'

section Moves
variable (v : Xyz) (h : HEntry)

theorem circPlus_moves : Moves h v (circPlus h.shift h.value v) := by
  simp [Moves, circPlus]

theorem circMinus_moves : Moves h v (circMinus h.shift h.value v) := by
  simp [Moves, circMinus]

theorem hypPlus_moves : Moves h v (hypPlus h.shift h.value v) := by
  simp [Moves, hypPlus]

theorem hypMinus_moves : Moves h v (hypMinus h.shift h.value v) := by
  simp [Moves, hypMinus]

theorem crotIter_moves : Moves h v (crotIter v h) := Moves.ite (circPlus_moves v h) (circMinus_moves v h)

theorem cvecIter_moves : Moves h v (cvecIter v h) := Moves.ite (circPlus_moves v h) (circMinus_moves v h)

theorem hrotIter_moves : Moves h v (hrotIter v h) := Moves.ite (hypPlus_moves v h) (hypMinus_moves v h)

theorem hvecIter_moves : Moves h v (hvecIter v h) := Moves.ite (hypPlus_moves v h) (hypMinus_moves v h)

end Moves

/-- Flooring adds at most one to the magnitude of a shifted value. -/
theorem natAbs_asr_le {a : ℤ} {m : ℕ} (ha : a.natAbs ≤ m) (n : ℕ) : (asr a n).natAbs ≤ m / 2 ^ n + 1 := by
  obtain ⟨hfloor, hceil⟩ := asr_spec a n
  have hpow : (0 : ℤ) < 2 ^ n := by positivity
  have hm : (m : ℤ) < ((m / 2 ^ n : ℕ) + 1) * 2 ^ n := by
    exact_mod_cast Nat.lt_mul_of_div_lt (Nat.lt_succ_self (m / 2 ^ n)) (by positivity)
  have hupper : asr a n < (m / 2 ^ n : ℕ) + 1 := lt_of_mul_lt_mul_right (by omega) hpow.le
  have hlower : -((m / 2 ^ n : ℕ) + 1 : ℤ) < asr a n + 1 :=
    lt_of_mul_lt_mul_right (by rw [neg_mul]; omega) hpow.le
  omega

/-! ## How far a run moves the registers (R125) -/

/-- `x` and `y` have magnitude at most `b.1`, and `z` at most `b.2`. -/
def Within (b : ℕ × ℕ) (v : Xyz) : Prop := v.1.natAbs ≤ b.1 ∧ v.2.1.natAbs ≤ b.1 ∧ v.2.2.natAbs ≤ b.2

theorem Within.mono {b b' : ℕ × ℕ} {v : Xyz} (h : Within b v) (hb : b ≤ b') : Within b' v := by
  obtain ⟨hx, hy, hz⟩ := h
  obtain ⟨hxy, hang⟩ := hb
  exact ⟨hx.trans hxy, hy.trans hxy, hz.trans hang⟩

/-- The bounds after an iteration: `m (1 + 2^-s) + 1` for `x` and `y`, floored, and one table entry more for `z`. -/
def grow (b : ℕ × ℕ) (h : HEntry) : ℕ × ℕ := (b.1 + (b.1 / 2 ^ h.shift + 1), b.2 + h.value.natAbs)

theorem Within.grow {b : ℕ × ℕ} {h : HEntry} {v w : Xyz} (hv : Within b v) (hw : Moves h v w) : Within (grow b h) w := by
  obtain ⟨hx, hy, hz⟩ := hv
  obtain ⟨hdx, hdy, hdz⟩ := hw
  have hsx := natAbs_asr_le hx h.shift
  have hsy := natAbs_asr_le hy h.shift
  refine ⟨?_, ?_, ?_⟩ <;> dsimp only [Machine.grow] <;> omega

theorem le_grow (b : ℕ × ℕ) (h : HEntry) : b ≤ grow b h :=
  ⟨Nat.le_add_right .., Nat.le_add_right ..⟩

theorem le_foldl_grow (l : List HEntry) (b : ℕ × ℕ) : b ≤ l.foldl grow b := by
  induction l generalizing b with
  | nil => exact le_rfl
  | cons h l ih => exact (le_grow b h).trans (ih _)

/-- The bounds only grow, so that those of the first entries are within those of the whole table. -/
theorem foldl_grow_take_le (l : List HEntry) (b : ℕ × ℕ) (k : ℕ) : (l.take k).foldl grow b ≤ l.foldl grow b :=
  calc (l.take k).foldl grow b ≤ (l.drop k).foldl grow ((l.take k).foldl grow b) := le_foldl_grow ..
    _ = l.foldl grow b := by rw [← List.foldl_append, List.take_append_drop]

section Runs
variable {iter : Xyz → HEntry → Xyz} (hiter : ∀ v h, Moves h v (iter v h))
include hiter

theorem Within.foldl (l : List HEntry) {b : ℕ × ℕ} {v : Xyz} (hv : Within b v) :
    Within (l.foldl Machine.grow b) (l.foldl iter v) := by
  induction l generalizing b v with
  | nil => exact hv
  | cons h l ih => exact ih (hv.grow (hiter v h))

/-- The bounds of the whole table hold after every number of iterations. -/
theorem Within.afterIters {l : List HEntry} {b : ℕ × ℕ} {v : Xyz} (hv : Within b v) (k : ℕ) :
    Within (l.foldl Machine.grow b) (afterIters iter l v k) :=
  (Within.foldl hiter (l.take k) hv).mono (foldl_grow_take_le l b k)

end Runs

/-! ## No overflow (R112, R125) -/

/-- The operand bound of R112, as magnitudes. -/
def engineBound (c : Config) : ℕ × ℕ := (2 ^ (c.width - 4), 2 ^ (c.width - 2))

theorem within_engineBound {c : Config} {x y z : ℤ} : Within (engineBound c) (x, y, z) ↔ InEngineBound c x y z := by
  simp only [Within, engineBound, InEngineBound, Int.abs_eq_natAbs]
  norm_cast

theorem inRange_of_within {c : Config} {b : ℕ × ℕ} {v : Xyz} (hv : Within b v)
    (hb : (b.1 : ℤ) ≤ maxRaw c ∧ (b.2 : ℤ) ≤ maxRaw c) : InRange c v := by
  have hsym : minRaw c ≤ -maxRaw c := by cases c <;> decide
  obtain ⟨hx, hy, hz⟩ := hv
  refine ⟨?_, ?_, ?_⟩ <;> omega

/-- A table that keeps the registers inside the type: the operand bound grows over it to at most `MAX`. -/
def Fits (c : Config) (l : List HEntry) : Prop :=
  ((l.foldl grow (engineBound c)).1 : ℤ) ≤ maxRaw c ∧ ((l.foldl grow (engineBound c)).2 : ℤ) ≤ maxRaw c

theorem circSteps_fits (c : Config) : Fits c (circSteps c) := by
  unfold Fits
  cases c <;> decide

theorem htab_fits (c : Config) : Fits c (htab c) := by
  unfold Fits
  cases c <;> decide

theorem afterIters_inRange {c : Config} {iter : Xyz → HEntry → Xyz} {l : List HEntry} {x y z : ℤ}
    (hiter : ∀ v h, Moves h v (iter v h)) (hl : Fits c l) (hin : InEngineBound c x y z) (k : ℕ) :
    InRange c (afterIters iter l (x, y, z) k) :=
  inRange_of_within ((within_engineBound.mpr hin).afterIters hiter k) hl

/-! ## The raw commands (R120 to R123) -/

/-- A command of format T3 is read from every beat with the opcode of its encoding (R72). -/
theorem readsABC_of_encode {opc : BitVec 8} {mk : Word → Word → Word → Instr}
    (henc : ∀ a b d, encode (mk a b d) = ⟨opc, a, b, d⟩) (hformat : ∀ a b d, (mk a b d).format = .t3) :
    ReadsABC opc mk := by
  intro cmd hopc
  rw [decode_eq_command_iff, henc, hformat, ← hopc]
  rfl

theorem answersThree_of_respond {i : Instr} {s : State} {v : Xyz} (hresp : respond s.cfg i = Response.three s.cfg v)
    (hv : InRange s.cfg v) : AnswersThree i s v := by
  refine ⟨hv, ?_⟩
  rw [exec_eq_answered, hresp]
  rfl

/-- A command that tests the operand bound and then runs over a table that fits: it answers the whole run, or error 9. -/
theorem answers_of_engine_run {i : Instr} {s : State} {iter : Xyz → HEntry → Xyz} {l : List HEntry} {x y z : ℤ}
    (hiter : ∀ v h, Moves h v (iter v h)) (hl : Fits s.cfg l)
    (hresp : respond s.cfg i =
      if outsideEngine s.cfg x y z then Response.raise .engineRange else Response.three s.cfg (l.foldl iter (x, y, z))) :
    (InEngineBound s.cfg x y z → AnswersThree i s (l.foldl iter (x, y, z))) ∧
    (¬ InEngineBound s.cfg x y z → AnswersError i s .engineRange) := by
  constructor
  · intro hin
    have hinside : outsideEngine s.cfg x y z = false := (outsideEngine_eq_false ..).mpr hin
    apply answersThree_of_respond
    · rw [hresp, hinside]
      rfl
    · rw [foldl_eq_afterIters iter _ rfl]
      exact afterIters_inRange hiter hl hin _
  · intro hout
    have houtside : outsideEngine s.cfg x y z = true := by
      rwa [← outsideEngine_eq_false, Bool.not_eq_false] at hout
    apply answersError_of_respond
    rw [hresp, houtside]
    rfl

end Sys2Proof.Machine
end

section
/-! SUPPORT. The statements about the CORDIC engine and its raw commands (41_cordic_engine.md). -/

namespace Sys2Proof.Machine

/-! ## The engine -/

/-- Settles O12: each iteration moves the registers by shifted values and a table entry, and the bounds that this gives for a whole
run stay below `MAX`. -/
theorem engineNeverOverflows : Obligations.EngineNeverOverflows := fun c _ _ _ k hin =>
  ⟨afterIters_inRange crotIter_moves (circSteps_fits c) hin k, afterIters_inRange cvecIter_moves (circSteps_fits c) hin k,
    afterIters_inRange hrotIter_moves (htab_fits c) hin k, afterIters_inRange hvecIter_moves (htab_fits c) hin k⟩

/-- Settles O13: the loop over `CTAB`, each iteration with its shifts as rational floors. -/
theorem circularIterations : Obligations.CircularIterations := fun c x y z =>
  ⟨by simpa only [crot, crotIter_eq_floor] using circular_loop c crotIter (x, y, z),
    by simpa only [cvec, cvecIter_eq_floor] using circular_loop c cvecIter (x, y, z)⟩

/-- Settles O14: the loop over `HTAB`, each iteration with its shifts as rational floors. -/
theorem hyperbolicIterations : Obligations.HyperbolicIterations := fun c x y z =>
  ⟨by simpa only [hrot, hrotIter_eq_floor] using hyperbolic_loop c hrotIter (x, y, z),
    by simpa only [hvec, hvecIter_eq_floor] using hyperbolic_loop c hvecIter (x, y, z)⟩

/-! ## The raw commands -/

/-- Settles O8. -/
theorem crotRunsOrRefusesRange : Obligations.CrotRunsOrRefusesRange :=
  ⟨readsABC_of_encode (fun _ _ _ => rfl) (fun _ _ _ => rfl), fun s _ _ _ =>
    answers_of_engine_run crotIter_moves (circSteps_fits s.cfg) rfl⟩

/-- Settles O9. -/
theorem cvecRunsOrRefusesRange : Obligations.CvecRunsOrRefusesRange :=
  ⟨readsABC_of_encode (fun _ _ _ => rfl) (fun _ _ _ => rfl), fun s _ _ _ =>
    answers_of_engine_run cvecIter_moves (circSteps_fits s.cfg) rfl⟩

/-- Settles O10. -/
theorem hrotRunsOrRefusesRange : Obligations.HrotRunsOrRefusesRange :=
  ⟨readsABC_of_encode (fun _ _ _ => rfl) (fun _ _ _ => rfl), fun s _ _ _ =>
    answers_of_engine_run hrotIter_moves (htab_fits s.cfg) rfl⟩

/-- Settles O11. -/
theorem hvecRunsOrRefusesRange : Obligations.HvecRunsOrRefusesRange :=
  ⟨readsABC_of_encode (fun _ _ _ => rfl) (fun _ _ _ => rfl), fun s _ _ _ =>
    answers_of_engine_run hvecIter_moves (htab_fits s.cfg) rfl⟩

end Sys2Proof.Machine
end

section
/-! SUPPORT. Facts of the Newton-Raphson square root (45_algebraic_refinement.md rule R220): how much nearer to the root one step comes,
and that the fixed number of steps reaches its exact floor. -/

namespace Sys2Proof.Machine

/-! ## One Newton step -/

section NewtonStep
variable {p g : ℕ}

theorem newtonStep_le_self (p g : ℕ) : newtonStep p g ≤ g := min_le_left _ _

/-- The step is at most the mean of `g` and `p / g`, flooring or not. -/
theorem two_mul_newtonStep_le (p g : ℕ) : 2 * g * newtonStep p g ≤ g ^ 2 + p :=
  calc 2 * g * newtonStep p g ≤ g * (2 * ((g + p / g) / 2)) := by
        rw [mul_comm 2 g, mul_assoc]
        gcongr
        exact min_le_right _ _
    _ ≤ g * (g + p / g) := by gcongr; exact Nat.mul_div_le _ 2
    _ = g ^ 2 + g * (p / g) := by ring
    _ ≤ g ^ 2 + p := by gcongr; exact Nat.mul_div_le p g

/-- No step goes below the floor of the root: the mean of `g` and `p / g` is at least the root. -/
theorem sqrt_le_newtonStep (hpos : 0 < g) (hg : Nat.sqrt p ≤ g) : Nat.sqrt p ≤ newtonStep p g := by
  refine le_min hg (Nat.lt_succ_iff.mp (Nat.sqrt_lt'.mpr ?_))
  have hquot : p < g * (p / g + 1) := Nat.lt_mul_div_succ p hpos
  have hmean : g + (p / g + 1) ≤ 2 * ((g + p / g) / 2 + 1) := by omega
  generalize p / g = q at hquot hmean ⊢
  generalize (g + q) / 2 = m at hmean ⊢
  zify at hquot hmean ⊢
  nlinarith [sq_nonneg ((g : ℤ) - (q + 1))]

/-- `g` exceeds the root of `p` by at most the part `1 / n` of it; squared, so that the root does not occur. -/
def RootExcessLe (p n g : ℕ) : Prop := n ^ 2 * g ^ 2 ≤ (n + 1) ^ 2 * p

/-- How the part shrinks: an excess of `1 / n` becomes one of `1 / (2 n (n + 1))`. -/
def nextPart (n : ℕ) : ℕ := 2 * n * (n + 1)

/-- Convergence is quadratic. -/
theorem RootExcessLe.newtonStep {n : ℕ} (hpos : 0 < g) (h : RootExcessLe p n g) :
    RootExcessLe p (nextPart n) (newtonStep p g) := by
  have hmean := two_mul_newtonStep_le p g
  have hle := newtonStep_le_self p g
  unfold RootExcessLe at h ⊢
  generalize Machine.newtonStep p g = m at hmean hle ⊢
  rcases le_total (g ^ 2) p with hbelow | habove
  · calc nextPart n ^ 2 * m ^ 2 ≤ (nextPart n + 1) ^ 2 * g ^ 2 := by gcongr; exact Nat.le_succ _
      _ ≤ (nextPart n + 1) ^ 2 * p := by gcongr
  · have hsquare : 4 * g ^ 2 * m ^ 2 ≤ (g ^ 2 + p) ^ 2 := by
      calc 4 * g ^ 2 * m ^ 2 = (2 * g * m) ^ 2 := by ring
        _ ≤ (g ^ 2 + p) ^ 2 := by gcongr
    have hfactor : nextPart n ^ 2 * (g ^ 2 + p) ^ 2 ≤ 4 * g ^ 2 * ((nextPart n + 1) ^ 2 * p) := by
      have hother : n ^ 2 * p ≤ (n + 1) ^ 2 * g ^ 2 := by gcongr; exact Nat.le_succ _
      unfold nextPart
      generalize g ^ 2 = a at *
      zify at h hother ⊢
      nlinarith [mul_nonneg (sub_nonneg.mpr h) (sub_nonneg.mpr hother)]
    refine Nat.le_of_mul_le_mul_left ?_ (show 0 < 4 * g ^ 2 by positivity)
    calc 4 * g ^ 2 * (nextPart n ^ 2 * m ^ 2) = nextPart n ^ 2 * (4 * g ^ 2 * m ^ 2) := by ring
      _ ≤ nextPart n ^ 2 * (g ^ 2 + p) ^ 2 := by gcongr
      _ ≤ 4 * g ^ 2 * ((nextPart n + 1) ^ 2 * p) := hfactor

/-- An excess below one part in `2 p` and a little more is less than the distance to the next integer. -/
theorem RootExcessLe.eq_sqrt {n : ℕ} (h : RootExcessLe p n g) (hg : Nat.sqrt p ≤ g) (hn : p * (2 * n + 1) < n ^ 2) :
    g = Nat.sqrt p := by
  have hlt : n ^ 2 * g ^ 2 < n ^ 2 * (p + 1) :=
    calc n ^ 2 * g ^ 2 ≤ (n + 1) ^ 2 * p := h
      _ = n ^ 2 * p + p * (2 * n + 1) := by ring
      _ < n ^ 2 * (p + 1) := by rw [mul_add_one]; exact Nat.add_lt_add_left hn _
  have hsq : g ^ 2 ≤ p := Nat.lt_succ_iff.mp (Nat.lt_of_mul_lt_mul_left hlt)
  exact le_antisymm (Nat.le_sqrt'.mpr hsq) hg

end NewtonStep

/-! ## The fixed number of steps -/

/-- After any number of steps `g` is still at least the floor of the root, and the excess has shrunk that many times. -/
theorem newton_spec {p : ℕ} (hp : 0 < p) (k : ℕ) {n g : ℕ} (hg : Nat.sqrt p ≤ g) (h : RootExcessLe p n g) :
    Nat.sqrt p ≤ newton p k g ∧ RootExcessLe p (nextPart^[k] n) (newton p k g) := by
  induction k generalizing n g with
  | zero => exact ⟨hg, h⟩
  | succ k ih =>
    have hpos : 0 < g := (Nat.sqrt_pos.mpr hp).trans_le hg
    exact ih (sqrt_le_newtonStep hpos hg) (h.newtonStep hpos)

/-- The first guess lies between the root and its double. -/
theorem newton_start {p : ℕ} (hp : p ≠ 0) :
    Nat.sqrt p ≤ 2 ^ ((bitlen p + 1) / 2) ∧ RootExcessLe p 1 (2 ^ ((bitlen p + 1) / 2)) := by
  obtain ⟨hlo, hhi⟩ := bitlen_spec p hp
  have hlen : bitlen p ≠ 0 := fun h => by rw [h] at hhi; omega
  constructor
  · refine (Nat.sqrt_lt'.mpr ?_).le
    calc p < 2 ^ bitlen p := hhi
      _ ≤ 2 ^ ((bitlen p + 1) / 2 * 2) := Nat.pow_le_pow_right two_pos (by omega)
      _ = (2 ^ ((bitlen p + 1) / 2)) ^ 2 := pow_mul ..
  · calc 1 ^ 2 * (2 ^ ((bitlen p + 1) / 2)) ^ 2 = 2 ^ ((bitlen p + 1) / 2 * 2) := by rw [one_pow, one_mul, pow_mul]
      _ ≤ 2 ^ (2 + (bitlen p - 1)) := Nat.pow_le_pow_right two_pos (by omega)
      _ = (1 + 1) ^ 2 * 2 ^ (bitlen p - 1) := pow_add ..
      _ ≤ (1 + 1) ^ 2 * p := by gcongr

/-- After `KSQRT` steps the excess is below the distance to the next integer, for every radicand of fewer than `2W` bits. -/
theorem kSqrt_suffices (c : Config) :
    2 ^ (2 * c.width - 1) * (2 * nextPart^[kSqrt c] 1 + 1) < (nextPart^[kSqrt c] 1) ^ 2 := by
  cases c <;> decide +kernel

/-- R220, R221: the result is the exact floor of the root. -/
theorem isqrtNr_eq_sqrt {c : Config} {p : ℕ} (hp : p < 2 ^ (2 * c.width - 1)) : isqrtNr c p = Nat.sqrt p := by
  unfold isqrtNr
  split_ifs with hzero
  · simp [hzero]
  · obtain ⟨hstart, hpart⟩ := newton_start hzero
    obtain ⟨hge, hexc⟩ := newton_spec (Nat.pos_of_ne_zero hzero) (kSqrt c) hstart hpart
    exact hexc.eq_sqrt hge ((Nat.mul_le_mul_right _ hp.le).trans_lt (kSqrt_suffices c))

end Sys2Proof.Machine
end

section
/-! SUPPORT. Facts of the trigonometric commands (42_trigonometric.md rules R140 to R153): the reduction by quadrants, the range of the
circular kernel, of the sine and the cosine, and of the four-quadrant arctangent. -/

namespace Sys2Proof.Machine

/-! ## The reduction (R140) -/

theorem halfPiE_half (c : Config) : 0 < asr (halfPiE c) 1 ∧ halfPiE c = 2 * asr (halfPiE c) 1 := by
  cases c <;> decide

/-- The quotient by `HALFPI_E`, rounded to the nearest integer. -/
def nearestQuadrant (c : Config) (t : ℤ) : ℤ :=
  floorDiv (shl t (extBits c - c.frac) + asr (halfPiE c) 1) (halfPiE c)

theorem reduceQuadrant_eq (c : Config) (t : ℤ) :
    reduceQuadrant c t =
      (nearestQuadrant c t % 4, t * 2 ^ (c.width - c.frac) - nearestQuadrant c t * halfPiE c) := rfl

/-- The remainder by the nearest multiple of an even number is centred around 0. -/
theorem centred_remainder (a : ℤ) {h : ℤ} (hpos : 0 < h) :
    -(2 * h) ≤ 2 * (a - floorDiv (a + h) (2 * h) * (2 * h)) ∧ 2 * (a - floorDiv (a + h) (2 * h) * (2 * h)) < 2 * h := by
  have hdiv : 0 < 2 * h := by omega
  have hle := Int.ediv_mul_le (a + h) hdiv.ne'
  have hlt := Int.lt_ediv_add_one_mul_self (a + h) hdiv
  rw [floorDiv_of_pos _ hdiv]
  rw [add_one_mul] at hlt
  omega

theorem reduceQuadrant_snd_mem (c : Config) (t : ℤ) :
    -halfPiE c ≤ 2 * (reduceQuadrant c t).2 ∧ 2 * (reduceQuadrant c t).2 < halfPiE c := by
  obtain ⟨hpos, heven⟩ := halfPiE_half c
  have hcentred := centred_remainder (shl t (extBits c - c.frac)) hpos
  rwa [← heven] at hcentred

/-- The quadrant is one of four. -/
theorem reduceQuadrant_fst_mem (c : Config) (t : ℤ) :
    0 ≤ (reduceQuadrant c t).1 ∧ (reduceQuadrant c t).1 < 4 := by
  rw [reduceQuadrant_eq]
  omega

/-- An odd multiple of `HALFPI_E` has fewer trailing zeros than the angle, `E - F` of them (R57), and so leaves a remainder. -/
theorem odd_mul_halfPiE_ne (c : Config) (t : ℤ) {q : ℤ} (hq : q % 2 = 1) :
    t * 2 ^ (c.width - c.frac) - q * halfPiE c ≠ 0 := by
  cases c with
  | i16f16 => change t * 2 ^ 16 - q * 6746518852 ≠ 0; omega
  | i32f32 => change t * 2 ^ 32 - q * 28976077832308491370 ≠ 0; omega

theorem reduceQuadrant_snd_ne_zero {c : Config} {t : ℤ} (hq : (reduceQuadrant c t).1 % 2 = 1) :
    (reduceQuadrant c t).2 ≠ 0 := by
  rw [reduceQuadrant_eq] at hq ⊢
  exact odd_mul_halfPiE_ne c t (by omega)

/-- The reduced angle at word precision lies in the range of the kernel. -/
theorem two_mul_abs_asr_le {c : Config} {rE : ℤ} (hlo : -halfPiE c ≤ 2 * rE) (hhi : 2 * rE < halfPiE c) :
    2 * |asr rE (c.width - c.frac)| ≤ halfPi c + 2 := by
  obtain ⟨hfloor, hceil⟩ := asr_spec rE (c.width - c.frac)
  rw [Int.abs_eq_natAbs]
  cases c
  all_goals
    simp only [Config.width, Config.int, Config.frac, halfPiE, halfPi] at *
    omega

/-! ## The circular kernel (R141) -/

theorem circParts_zero (c : Config) : circParts c 0 = (one c, 0) := rfl

theorem circParts_of_ne_zero {c : Config} {r : ℤ} (hr : r ≠ 0) :
    circParts c r = (min (crot c (kC c) 0 r).1 (one c), max (-one c) (min (crot c (kC c) 0 r).2.1 (one c))) :=
  if_neg hr

/-- A run lowers `x` by at most as much as the bound on `x` and `y` grows (R125). -/
theorem foldl_fst_sub_le {iter : Xyz → HEntry → Xyz} (hiter : ∀ v h, Moves h v (iter v h)) (l : List HEntry)
    {b : ℕ × ℕ} {v : Xyz} (hv : Within b v) :
    v.1 + b.1 ≤ (l.foldl iter v).1 + (l.foldl grow b).1 := by
  induction l generalizing b v with
  | nil => exact le_rfl
  | cons h l ih =>
    obtain ⟨hdx, -, -⟩ := hiter v h
    have ⟨_, hy, _⟩ := hv
    have hstep := natAbs_asr_le hy h.shift
    have hrest := ih (hv.grow (hiter v h))
    simp only [grow, List.foldl_cons] at hrest ⊢
    omega

theorem circSteps_take_three (c : Config) :
    (circSteps c).take 3 = [⟨0, (ctab c).getD 0 0⟩, ⟨1, (ctab c).getD 1 0⟩, ⟨2, (ctab c).getD 2 0⟩] := by
  cases c <;> rfl

/-- After three iterations from `(KC, 0)` at a reduced angle the cosine is at least one half: only `z` is unknown, and its sign before
each iteration decides which numbers `x` and `y` are. -/
theorem crot_three {c : Config} {r : ℤ} (hr : 2 * |r| ≤ halfPi c + 2) :
    Within (2 ^ c.frac, 2 ^ c.frac) (((circSteps c).take 3).foldl crotIter (kC c, 0, r)) ∧
    half c ≤ (((circSteps c).take 3).foldl crotIter (kC c, 0, r)).1 := by
  rw [circSteps_take_three]
  rw [Int.abs_eq_natAbs] at hr
  cases c
  all_goals
    simp only [halfPi, kC, ctab, List.getD_cons_zero, List.getD_cons_succ, List.foldl_cons, List.foldl_nil, crotIter, circPlus,
      circMinus, Within, asr, half, Config.frac] at *
    split_ifs <;> dsimp only at * <;> omega

/-- The iterations after the third cannot use up that half. -/
theorem circSteps_drop_three_grow (c : Config) :
    (((circSteps c).drop 3).foldl grow (2 ^ c.frac, 2 ^ c.frac)).1 < half c + 2 ^ c.frac := by
  cases c <;> decide +kernel

theorem crot_fst_pos {c : Config} {r : ℤ} (hr : 2 * |r| ≤ halfPi c + 2) : 0 < (crot c (kC c) 0 r).1 := by
  obtain ⟨hwithin, hhalf⟩ := crot_three hr
  have hrest := foldl_fst_sub_le crotIter_moves ((circSteps c).drop 3) hwithin
  have hgrow := circSteps_drop_three_grow c
  rw [← List.foldl_append, List.take_append_drop] at hrest
  push_cast at hrest
  unfold crot
  omega

/-- The cosine of a reduced angle is in `(0, ONE]`, its sine in `[-ONE, ONE]`. -/
theorem circParts_mem {c : Config} {r : ℤ} (hr : 2 * |r| ≤ halfPi c + 2) :
    0 < (circParts c r).1 ∧ (circParts c r).1 ≤ one c ∧ |(circParts c r).2| ≤ one c := by
  have hone := oneRaw_pos c
  rcases eq_or_ne r 0 with rfl | hne
  · rw [circParts_zero, abs_zero]
    exact ⟨hone, le_rfl, hone.le⟩
  · have hpos := crot_fst_pos hr
    rw [circParts_of_ne_zero hne, abs_le]
    dsimp only
    omega

/-! ## Sine and cosine (R142) -/

/-- The four cases, with the kernel at the reduced angle. -/
theorem sincos_eq {c : Config} {t q rE cs sn : ℤ} (hred : reduceQuadrant c t = (q, rE))
    (hparts : circParts c (asr rE (c.width - c.frac)) = (cs, sn)) :
    sincos c t =
      (if q = 0 then sn else if q = 1 then cs else if q = 2 then -sn else -cs,
        if q = 0 then cs else if q = 1 then -sn else if q = 2 then -cs else sn) := by
  simp only [sincos, hred, extBits, hparts]
  split_ifs <;> rfl

theorem abs_sincos_le_one (c : Config) (t : ℤ) : |(sincos c t).1| ≤ one c ∧ |(sincos c t).2| ≤ one c := by
  obtain ⟨hlo, hhi⟩ := reduceQuadrant_snd_mem c t
  obtain ⟨hpos, hcos, hsin⟩ := circParts_mem (two_mul_abs_asr_le hlo hhi)
  rw [sincos_eq (Prod.eta _).symm (Prod.eta _).symm]
  rw [abs_le] at hsin ⊢
  rw [abs_le]
  dsimp only
  constructor <;> split_ifs <;> omega

/-! ## The angle of two magnitudes (R147) -/

/-- A scaling to the bit `n` of a leading one at or below it is exact. -/
theorem scaleBy_of_le (v : ℕ) {l n : ℕ} (h : l ≤ n) : scaleBy v ((n : ℤ) - l) = v * 2 ^ (n - l) := by
  obtain ⟨d, rfl⟩ := Nat.exists_eq_add_of_le h
  simp [scaleBy]

/-- A scaling to the bit `n` of a leading one above it drops the lower bits. -/
theorem scaleBy_of_lt (v : ℕ) {l n : ℕ} (h : n < l) : scaleBy v ((n : ℤ) - l) = v / 2 ^ (l - n) := by
  have hneg : ¬ (n : ℤ) - l ≥ 0 := by omega
  have hcount : (-((n : ℤ) - l)).toNat = l - n := by omega
  rw [scaleBy, if_neg hneg, hcount]

/-- A value with its leading one at or below bit `l` has it at or below bit `n` after the scaling. -/
theorem scaleBy_lt {v l : ℕ} (hv : v < 2 ^ (l + 1)) (n : ℕ) : scaleBy v ((n : ℤ) - l) < 2 ^ (n + 1) := by
  rcases le_or_gt l n with h | h
  · rw [scaleBy_of_le v h]
    calc v * 2 ^ (n - l) < 2 ^ (l + 1) * 2 ^ (n - l) := by gcongr
      _ = 2 ^ (n + 1) := by rw [← pow_add]; congr 1; omega
  · rw [scaleBy_of_lt v h]
    refine Nat.div_lt_of_lt_mul ?_
    calc v < 2 ^ (l + 1) := hv
      _ = 2 ^ (l - n) * 2 ^ (n + 1) := by rw [← pow_add]; congr 1; omega

/-- The common scaling brings the leading one of the larger magnitude to bit `PNORM`. -/
theorem fqAngle_eq (c : Config) {ay ax : ℕ} (hx : 0 < ax) :
    fqAngle c ay ax =
      max 0 (min (halfPi c)
        (cvec c (scaleBy ax (((c.width - 6 : ℕ) : ℤ) - Nat.log 2 (max ax ay)))
          (scaleBy ay (((c.width - 6 : ℕ) : ℤ) - Nat.log 2 (max ax ay))) 0).2.2) := by
  have hne : max ax ay ≠ 0 := by omega
  simp only [fqAngle, bitlen, if_neg hne, Nat.log2_eq_log_two, Nat.cast_add, Nat.cast_one, add_sub_cancel_right, pNorm]

theorem halfPi_pos (c : Config) : 0 < halfPi c := by cases c <;> decide

theorem fqAngle_mem (c : Config) (ay ax : ℕ) : 0 ≤ fqAngle c ay ax ∧ fqAngle c ay ax ≤ halfPi c := by
  have hpos := halfPi_pos c
  unfold fqAngle
  dsimp only
  omega

/-! ## The four-quadrant arctangent (R148) -/

theorem halfPi_le_pi (c : Config) : halfPi c ≤ Machine.pi c := by cases c <;> decide

/-- To the right of the `y` axis and on it, the angle is at most a quarter turn. -/
theorem abs_atan2core_le_halfPi (c : Config) (y : ℤ) {x : ℤ} (hx : 0 ≤ x) : |atan2core c y x| ≤ halfPi c := by
  have hpos := halfPi_pos c
  obtain ⟨hlo, hhi⟩ := fqAngle_mem c y.natAbs x.natAbs
  rw [abs_le]
  unfold atan2core
  dsimp only
  split_ifs <;> omega

/-- Above the `x` axis and on it, the angle is in the upper half turn. -/
theorem atan2core_mem_of_nonneg (c : Config) {y : ℤ} (hy : 0 ≤ y) (x : ℤ) :
    0 ≤ atan2core c y x ∧ atan2core c y x ≤ Machine.pi c := by
  have hpos := halfPi_pos c
  have hpi := halfPi_le_pi c
  obtain ⟨hlo, hhi⟩ := fqAngle_mem c y.natAbs x.natAbs
  unfold atan2core
  dsimp only
  split_ifs <;> omega

theorem abs_atan2core_le_pi (c : Config) (y x : ℤ) : |atan2core c y x| ≤ Machine.pi c := by
  have hpos := halfPi_pos c
  have hpi := halfPi_le_pi c
  obtain ⟨hlo, hhi⟩ := fqAngle_mem c y.natAbs x.natAbs
  rw [abs_le]
  unfold atan2core
  dsimp only
  split_ifs <;> omega

/-! ## The other leg of the triangle (R151) -/

/-- The radicand of a value in the domain is at most `ONE^2`, so that the Newton steps reach its exact root. -/
theorem asinW_eq_sqrt (c : Config) (v : ℤ) :
    asinW c v = (Nat.sqrt ((one c - v) * (one c + v)).toNat : ℕ) := by
  have hle : (one c - v) * (one c + v) ≤ one c ^ 2 := by nlinarith [sq_nonneg v]
  have hbound : one c ^ 2 < 2 ^ (2 * c.width - 1) := by cases c <;> decide
  have hsq := sq_nonneg (one c)
  rw [asinW, isqrtNr_eq_sqrt]
  zify
  omega

theorem asinW_nonneg (c : Config) (v : ℤ) : 0 ≤ asinW c v := Int.natCast_nonneg _

/-! ## Raw values (R10) -/

/-- Every angle in `[-PI, PI]` is a raw value. -/
theorem mem_of_abs_le_pi {c : Config} {v : ℤ} (hv : |v| ≤ Machine.pi c) : minRaw c ≤ v ∧ v ≤ maxRaw c := by
  have hends : minRaw c ≤ -Machine.pi c ∧ Machine.pi c ≤ maxRaw c := by cases c <;> decide
  rw [abs_le] at hv
  omega

theorem mem_of_abs_le_one {c : Config} {v : ℤ} (hv : |v| ≤ one c) : minRaw c ≤ v ∧ v ≤ maxRaw c :=
  mem_of_abs_le_pi (hv.trans (by cases c <;> decide))

/-! ## The hyperbolic pair (R175, R176) -/

theorem sinhValue_mem (c : Config) (v : ℤ) : minRaw c ≤ sinhValue c v ∧ sinhValue c v ≤ maxRaw c := by
  have hends := minRaw_le_maxRaw c
  unfold sinhValue
  split_ifs
  · exact ⟨hends, le_rfl⟩
  · exact ⟨le_rfl, hends⟩
  · rw [sat_eq_clamp]
    exact clamp_mem c _

theorem coshValue_mem (c : Config) (v : ℤ) : minRaw c ≤ coshValue c v ∧ coshValue c v ≤ maxRaw c := by
  unfold coshValue
  split_ifs
  · exact ⟨minRaw_le_maxRaw c, le_rfl⟩
  · rw [sat_eq_clamp]
    exact clamp_mem c _

/-! ## From responses to answers, from encodings to readings -/

/-- A command of format U1 or U2 is read from every beat with the opcode of its encoding (R72, R76). -/
theorem readsA_of_encode {opc : BitVec 8} {mk : Word → Instr} (henc : ∀ a, encode (mk a) = ⟨opc, a, 0, 0⟩)
    (hformat : ∀ a, (mk a).format = .u1 ∨ (mk a).format = .u2) : ReadsA opc mk := by
  intro cmd hopc
  rw [decode_eq_command_iff, henc, ← hopc]
  rcases hformat cmd.a with hf | hf <;> rw [hf] <;> rfl

theorem answersTwo_of_respond {i : Instr} {s : State} {v w : ℤ} (hresp : respond s.cfg i = Response.two s.cfg v w)
    (hv : minRaw s.cfg ≤ v ∧ v ≤ maxRaw s.cfg) (hw : minRaw s.cfg ≤ w ∧ w ≤ maxRaw s.cfg) : AnswersTwo i s v w := by
  refine ⟨hv, hw, ?_⟩
  rw [exec_eq_answered, hresp]
  rfl

/-! ## The responses (R143 to R153) -/

theorem respond_asin (c : Config) (a : Word) :
    respond c (.asin a) =
      if |signed c a| > one c then Response.raise .asinAcosDomain
      else Response.one c (atan2core c (signed c a) (asinW c (signed c a))) := by
  rw [← absInt_eq_abs]
  rfl

theorem respond_acos (c : Config) (a : Word) :
    respond c (.acos a) =
      if |signed c a| > one c then Response.raise .asinAcosDomain
      else Response.one c (atan2core c (asinW c (signed c a)) (signed c a)) := by
  rw [← absInt_eq_abs]
  rfl

/-- The magnitude of the cotangent near a pole and away from it, with its quotients as rational floors. -/
theorem cotMagnitude_eq {c : Config} {rE cs sn : ℤ} (hparts : circParts c (asr rE (c.width - c.frac)) = (cs, sn)) :
    cotMagnitude c rE =
      if |rE| < 2 ^ (c.width - 3) then
        ⌊(2 : ℚ) ^ (c.width + c.frac) / (|rE| : ℤ)⌋ - cotSeries c ⌊((|rE| : ℤ) : ℚ) / 2 ^ (c.width - c.frac)⌋
      else ⌊((cs : ℚ) * 2 ^ c.frac) / (|sn| : ℤ)⌋ := by
  simp only [cotMagnitude, extBits, absInt_eq_abs, hparts]
  simp only [asr_eq_floor, floorDiv_eq_floor, shl, Int.cast_mul, Int.cast_pow, Int.cast_ofNat]

/-- The four quadrants of TAN; an odd one leaves a remainder, so that the branch without one is not taken (R146). -/
theorem tanValue_eq {c : Config} {t q rE cs sn : ℤ} (hred : reduceQuadrant c t = (q, rE))
    (hparts : circParts c (asr rE (c.width - c.frac)) = (cs, sn)) :
    tanValue c t =
      if q = 0 ∨ q = 2 then clamp c (fdiv c sn cs)
      else if rE > 0 then clamp c (-cotMagnitude c rE)
      else clamp c (cotMagnitude c rE) := by
  have hodd : ¬ (q = 0 ∨ q = 2) → rE ≠ 0 := by
    intro hq
    have hmem := reduceQuadrant_fst_mem c t
    have hne := reduceQuadrant_snd_ne_zero (c := c) (t := t)
    rw [hred] at hmem hne
    exact hne (by omega)
  simp only [tanValue, hred, extBits, hparts, sat_eq_clamp]
  by_cases heven : q = 0 ∨ q = 2
  · rw [if_pos heven, if_pos heven]
  · rw [if_neg heven, if_neg heven, if_neg (hodd heven)]

end Sys2Proof.Machine
end

section
/-! SUPPORT. The statements about the trigonometric commands (42_trigonometric.md). -/

namespace Sys2Proof.Machine

/-- Settles O15: Euclidean division by `HALFPI_E`; the parity of the quotient by the trailing zeros of `HALFPI_E`. -/
theorem quadrantReductionExact : Obligations.QuadrantReductionExact := by
  intro c t
  obtain ⟨hlo, hhi⟩ := reduceQuadrant_snd_mem c t
  refine ⟨nearestQuadrant c t, ?_, rfl, hlo, hhi, odd_mul_halfPiE_ne c t⟩
  rw [reduceQuadrant_eq, add_sub_cancel]

/-- Settles O16: three iterations by cases leave the cosine at least at `HALF`, and the others move it by less. -/
theorem circularKernelClamped : Obligations.CircularKernelClamped := fun c _ =>
  ⟨fun hr => hr ▸ circParts_zero c, circParts_of_ne_zero, circParts_mem⟩

/-- Settles O17: the four cases of `sincos`, in range because the reduced angle lies in the range of the kernel. -/
theorem sineAndCosine : Obligations.SineAndCosine := by
  refine ⟨readsA_of_encode (fun _ => rfl) (fun _ => .inl rfl), readsA_of_encode (fun _ => rfl) (fun _ => .inl rfl), ?_⟩
  rintro s a q rE cs sn v w hred hparts rfl rfl
  rw [← asr_eq_floor] at hparts
  obtain ⟨hsin, hcos⟩ := abs_sincos_le_one s.cfg (signed s.cfg a)
  have hcases := sincos_eq hred hparts
  have hv := congrArg Prod.fst hcases
  have hw := congrArg Prod.snd hcases
  dsimp only at hv hw
  rw [← hv, ← hw]
  exact ⟨answersOne_of_respond rfl (mem_of_abs_le_one hsin), answersOne_of_respond rfl (mem_of_abs_le_one hcos), hsin, hcos⟩

/-- Settles O18: the pair commands evaluate the same functions. -/
theorem pairCommandsAgree : Obligations.PairCommandsAgree := by
  refine ⟨readsA_of_encode (fun _ => rfl) (fun _ => .inr rfl), readsA_of_encode (fun _ => rfl) (fun _ => .inr rfl),
    fun s a => ⟨?circular, ?hyperbolic⟩⟩
  case circular =>
    obtain ⟨hsin, hcos⟩ := abs_sincos_le_one s.cfg (signed s.cfg a)
    have hv := mem_of_abs_le_one hsin
    have hw := mem_of_abs_le_one hcos
    exact ⟨_, _, answersOne_of_respond rfl hv, answersOne_of_respond rfl hw, answersTwo_of_respond rfl hv hw⟩
  case hyperbolic =>
    have hv := sinhValue_mem s.cfg (signed s.cfg a)
    have hw := coshValue_mem s.cfg (signed s.cfg a)
    exact ⟨_, _, answersOne_of_respond rfl hv, answersOne_of_respond rfl hw, answersTwo_of_respond rfl hv hw⟩

/-- Settles O19: an odd quadrant leaves a remainder, and each quotient is a rational floor. -/
theorem tangentByQuadrant : Obligations.TangentByQuadrant := by
  refine ⟨readsA_of_encode (fun _ => rfl) (fun _ => .inl rfl), ?_⟩
  rintro s a _ q rE cs sn rfl hred hparts
  rw [← asr_eq_floor] at hparts
  have htan := tanValue_eq hred hparts
  rw [cotMagnitude_eq hparts, fdiv_eq_floor] at htan
  dsimp only
  rw [← htan]
  refine answersOne_of_respond rfl ?_
  rw [htan]
  split_ifs <;> exact clamp_mem ..

/-- Settles O20: the scaling by the leading one of the larger magnitude, and the case analysis with every angle in `[-PI, PI]`. -/
theorem arcTangentOfTwo : Obligations.ArcTangentOfTwo := by
  refine ⟨readsAB_of_encode (fun _ _ => rfl) (fun _ _ => rfl), fun c ay ax _ hx => ?scaling, ?answer⟩
  case scaling =>
    have hwidth : c.width - 5 = c.width - 6 + 1 := by cases c <;> rfl
    have hlead : max ax ay < 2 ^ (Nat.log 2 (max ax ay) + 1) := Nat.lt_pow_succ_log_self one_lt_two _
    rw [hwidth]
    exact ⟨_, _, scaleBy_lt ((le_max_left ..).trans_lt hlead) _, scaleBy_lt ((le_max_right ..).trans_lt hlead) _,
      fun h => ⟨scaleBy_of_le ax h, scaleBy_of_le ay h⟩, fun h => ⟨scaleBy_of_lt ax h, scaleBy_of_lt ay h⟩,
      fqAngle_eq c hx⟩
  case answer =>
    rintro s a b y x phi rfl rfl rfl
    exact answersOne_of_respond rfl (mem_of_abs_le_pi (abs_atan2core_le_pi s.cfg (signed s.cfg a) (signed s.cfg b)))

/-- Settles O21: the vector `(ONE, A)` does not point to the left. -/
theorem arcTangent : Obligations.ArcTangent := by
  refine ⟨readsA_of_encode (fun _ => rfl) (fun _ => .inl rfl), fun s a => ?_⟩
  have hangle := abs_atan2core_le_halfPi s.cfg (signed s.cfg a) (oneRaw_pos s.cfg).le
  exact ⟨answersOne_of_respond rfl (mem_of_abs_le_pi (hangle.trans (halfPi_le_pi _))), hangle⟩

/-- Settles O22: the vector `(w, v)` does not point to the left. -/
theorem arcSine : Obligations.ArcSine := by
  refine ⟨readsA_of_encode (fun _ => rfl) (fun _ => .inl rfl), ?_⟩
  rintro s a v w rfl hw
  rw [← asinW_eq_sqrt] at hw
  subst hw
  refine ⟨fun hout => answersError_of_respond ?_, fun hin => ?_⟩
  · rw [respond_asin, if_pos hout]
  · have hangle := abs_atan2core_le_halfPi s.cfg (signed s.cfg a) (asinW_nonneg s.cfg (signed s.cfg a))
    refine ⟨answersOne_of_respond ?_ (mem_of_abs_le_pi (hangle.trans (halfPi_le_pi _))), hangle⟩
    rw [respond_asin, if_neg hin.not_gt]

/-- Settles O23: the vector `(v, w)` does not point down. -/
theorem arcCosine : Obligations.ArcCosine := by
  refine ⟨readsA_of_encode (fun _ => rfl) (fun _ => .inl rfl), ?_⟩
  rintro s a v w rfl hw
  rw [← asinW_eq_sqrt] at hw
  subst hw
  refine ⟨fun hout => answersError_of_respond ?_, fun hin => ?_⟩
  · rw [respond_acos, if_pos hout]
  · have hangle := atan2core_mem_of_nonneg s.cfg (asinW_nonneg s.cfg (signed s.cfg a)) (signed s.cfg a)
    refine ⟨answersOne_of_respond ?_ (mem_of_abs_le_pi (abs_atan2core_le_pi ..)), hangle⟩
    rw [respond_acos, if_neg hin.not_gt]

end Sys2Proof.Machine
end

section
/-! SUPPORT. Facts of the hyperbolic commands (43_hyperbolic.md rules R170 to R184): the reduction by ln 2, the margin by which the
kernel's cosine stays above its sine, the range of the polynomials and of the logarithm kernel, and what changes with the sign of the
operand. -/

namespace Sys2Proof.Machine

/-! ## The reduction by ln 2 (R170) -/

theorem ln2E_half (c : Config) : 0 < asr (ln2E c) 1 ∧ ln2E c = 2 * asr (ln2E c) 1 := by
  cases c <;> decide

/-- The quotient by `LN2_E`, rounded to the nearest integer. -/
def nearestLn2 (c : Config) (a : ℤ) : ℤ := floorDiv (shl a (extBits c - c.frac) + asr (ln2E c) 1) (ln2E c)

/-- What the nearest multiple of `LN2_E` leaves, with `E` fractional bits. -/
def ln2Remainder (c : Config) (a : ℤ) : ℤ := a * 2 ^ (c.width - c.frac) - nearestLn2 c a * ln2E c

theorem reduceLn2_eq (c : Config) (a : ℤ) :
    reduceLn2 c a = (nearestLn2 c a, asr (ln2Remainder c a) (c.width - c.frac)) := rfl

theorem ln2Remainder_mem (c : Config) (a : ℤ) :
    -ln2E c ≤ 2 * ln2Remainder c a ∧ 2 * ln2Remainder c a < ln2E c := by
  obtain ⟨hpos, heven⟩ := ln2E_half c
  have hcentred := centred_remainder (shl a (extBits c - c.frac)) hpos
  rwa [← heven] at hcentred

/-- The remainder at word precision is at most half of `LN2` and one more. -/
theorem two_mul_abs_reduceLn2_snd_le (c : Config) (a : ℤ) : 2 * |(reduceLn2 c a).2| ≤ ln2 c + 2 := by
  obtain ⟨hlo, hhi⟩ := ln2Remainder_mem c a
  obtain ⟨hfloor, hceil⟩ := asr_spec (ln2Remainder c a) (c.width - c.frac)
  rw [reduceLn2_eq, Int.abs_eq_natAbs]
  generalize ln2Remainder c a = rE at *
  cases c
  all_goals
    simp only [Config.width, Config.int, Config.frac, ln2E, ln2] at *
    omega

theorem reduceLn2_fst_nonneg (c : Config) {a : ℤ} (ha : 0 ≤ a) : 0 ≤ (reduceLn2 c a).1 := by
  obtain ⟨hpos, heven⟩ := ln2E_half c
  have hdiv : 0 < ln2E c := by omega
  have hshl : 0 ≤ shl a (extBits c - c.frac) := mul_nonneg ha (by positivity)
  rw [reduceLn2_eq, nearestLn2, floorDiv_of_pos _ hdiv]
  exact Int.ediv_nonneg (by omega) hdiv.le

/-! ## The margin of the hyperbolic kernel (R171) -/

/-- `x` exceeds the magnitude of `y` by at least `m`; nothing when `m` is 0. -/
def AheadBy (m : ℕ) (v : Xyz) : Prop := m ≠ 0 → |v.2.1| + m ≤ v.1

/-- What an iteration leaves of the margin at least: it takes the shifted margin, and two units by its floors. -/
def shrink (m : ℕ) (h : HEntry) : ℕ := m - m / 2 ^ h.shift - 2

section Margin
variable {m n : ℕ} {u q : ℤ}

/-- What is left of a margin `u` of at least `m` after `u / 2^n`, rounded up by less than one, is taken from it. -/
theorem margin_le_sub (hu : (m : ℤ) ≤ u) (hq : q * 2 ^ n < u + 2 ^ n) : (m : ℤ) - (m / 2 ^ n : ℕ) - 2 ≤ u - q := by
  have hpow : (1 : ℤ) ≤ 2 ^ n := one_le_pow₀ (by norm_num)
  have hquot : (m : ℤ) < ((m / 2 ^ n : ℕ) + 1) * 2 ^ n := by
    exact_mod_cast Nat.lt_mul_of_div_lt (Nat.lt_succ_self (m / 2 ^ n)) (by positivity)
  by_contra! hlt
  nlinarith [mul_nonneg (sub_nonneg.mpr hpow) (sub_nonneg.mpr hu),
    mul_le_mul_of_nonneg_right (show u - m + (m / 2 ^ n : ℕ) + 3 ≤ q by linarith) (zero_le_one.trans hpow)]

/-- What a margin `u` of at least `m` becomes when `u / 2^n`, rounded down by less than two, is added to it. -/
theorem margin_le_add (hu : (m : ℤ) ≤ u) (hq : u < (q + 2) * 2 ^ n) : (m : ℤ) - (m / 2 ^ n : ℕ) - 2 ≤ u + q := by
  have hpos : 0 < q + 2 := pos_of_mul_pos_left (by omega : 0 < (q + 2) * 2 ^ n) (by positivity)
  generalize m / 2 ^ n = d
  omega

end Margin

theorem AheadBy.hrotIter {m : ℕ} {v : Xyz} (hv : AheadBy m v) (h : HEntry) : AheadBy (shrink m h) (hrotIter v h) := by
  intro hne
  have hm : m ≠ 0 := fun h0 => hne (by simp [shrink, h0])
  have hahead := hv hm
  obtain ⟨x, y, z⟩ := v
  obtain ⟨hx, hx'⟩ := asr_spec x h.shift
  obtain ⟨hy, hy'⟩ := asr_spec y h.shift
  dsimp only at hahead
  have hsum : (m : ℤ) ≤ x + y := by linarith [neg_abs_le y]
  have hdiff : (m : ℤ) ≤ x - y := by linarith [le_abs_self y]
  have hpow : (0 : ℤ) < 2 ^ h.shift := by positivity
  have hsumAdd := margin_le_add (q := asr x h.shift + asr y h.shift) hsum (by linarith)
  have hsumSub := margin_le_sub (q := asr x h.shift + asr y h.shift) hsum (by linarith)
  have hdiffAdd := margin_le_add (q := asr x h.shift - asr y h.shift) hdiff (by linarith)
  have hdiffSub := margin_le_sub (q := asr x h.shift - asr y h.shift) hdiff (by linarith)
  simp only [shrink, Machine.hrotIter, hypPlus, hypMinus] at hne ⊢
  split_ifs <;> dsimp only <;> rw [← le_sub_iff_add_le, abs_le] <;> omega

theorem AheadBy.foldl (l : List HEntry) {m : ℕ} {v : Xyz} (hv : AheadBy m v) :
    AheadBy (l.foldl shrink m) (l.foldl Machine.hrotIter v) := by
  induction l generalizing m v with
  | nil => exact hv
  | cons h l ih => exact ih (hv.hrotIter h)

/-- The margin from `(KH, 0)` is not used up over the table, whatever the angle: the factors `1 - 2^-s` of its entries leave about
a quarter of it. -/
theorem two_le_foldl_shrink (c : Config) : 2 ≤ (htab c).foldl shrink (kH c).toNat := by
  cases c <;> decide +kernel

theorem hypParts_zero (c : Config) : hypParts c 0 = (one c, 0) := rfl

theorem hypParts_of_ne_zero {c : Config} {r : ℤ} (hr : r ≠ 0) :
    hypParts c r = ((hrot c (kH c) 0 r).1, (hrot c (kH c) 0 r).2.1) :=
  if_neg hr

theorem hypParts_margin (c : Config) (r : ℤ) : |(hypParts c r).2| + 2 ≤ (hypParts c r).1 := by
  rcases eq_or_ne r 0 with rfl | hne
  · cases c <;> decide
  · have hstart : AheadBy (kH c).toNat (kH c, 0, r) := fun _ => by
      have hpos : 0 ≤ kH c := by cases c <;> decide
      simp [hpos]
    have htwo := two_le_foldl_shrink c
    have hend := hstart.foldl (htab c) (by omega)
    rw [hypParts_of_ne_zero hne, hrot]
    dsimp only
    omega

/-! ## The reconstruction from `exp(a)` and `exp(-a)` (R172) -/

theorem hypSc_eq {c : Config} {a k r ch sh : ℤ} (hred : reduceLn2 c a = (k, r)) (hparts : hypParts c r = (ch, sh)) :
    hypSc c a =
      (if a < taylorT c then taylorSinh c a else asr ((ch + sh) * 2 ^ k.toNat - asr (ch - sh) k.toNat) 1,
        asr ((ch + sh) * 2 ^ k.toNat + asr (ch - sh) k.toNat) 1) := by
  simp only [hypSc, hred, hparts, shl]

theorem fmul_nonneg (c : Config) {a b : ℤ} (ha : 0 ≤ a) (hb : 0 ≤ b) : 0 ≤ fmul c a b :=
  Int.ediv_nonneg (mul_nonneg ha hb) (by positivity)

/-- Every coefficient is positive, and no term is subtracted. -/
theorem taylorSinh_nonneg (c : Config) {a : ℤ} (ha : 0 ≤ a) : 0 ≤ taylorSinh c a := by
  have hcoeff : 0 ≤ one c ∧ 0 ≤ c1_6 c ∧ 0 ≤ c1_120 c ∧ 0 ≤ c1_5040 c := by cases c <;> decide
  obtain ⟨h1, h6, h120, h5040⟩ := hcoeff
  have hsq := fmul_nonneg c ha ha
  have hinner := add_nonneg h120 (fmul_nonneg c hsq h5040)
  have hmiddle := add_nonneg h6 (fmul_nonneg c hsq hinner)
  exact fmul_nonneg c ha (add_nonneg h1 (fmul_nonneg c hsq hmiddle))

/-- The cosine of a magnitude is positive, and its sine not below the negated cosine. -/
theorem hypSc_spec (c : Config) {a : ℤ} (ha : 0 ≤ a) : 0 < (hypSc c a).2 ∧ -(hypSc c a).2 ≤ (hypSc c a).1 := by
  have hmargin := hypParts_margin c (reduceLn2 c a).2
  have htaylor := taylorSinh_nonneg c ha
  rw [hypSc_eq (Prod.eta _).symm (Prod.eta _).symm]
  generalize (reduceLn2 c a).1.toNat = n
  generalize (hypParts c (reduceLn2 c a).2).1 = ch at *
  generalize (hypParts c (reduceLn2 c a).2).2 = sh at *
  have hplus : 2 ≤ (ch + sh) * 2 ^ n := by
    have hpow : (1 : ℤ) ≤ 2 ^ n := one_le_pow₀ (by norm_num)
    nlinarith [neg_abs_le sh]
  have hminus : 0 ≤ asr (ch - sh) n := Int.ediv_nonneg (by linarith [le_abs_self sh]) (by positivity)
  generalize (ch + sh) * 2 ^ n = p at *
  generalize asr (ch - sh) n = q at *
  dsimp only [asr]
  split_ifs <;> omega

/-! ## The values of the four commands on the kernel (R175, R176, R178, R179) -/

section Values
variable (c : Config) (v : ℤ)

theorem sinhValue_eq :
    sinhValue c v =
      if v ≥ tSinh c then maxRaw c
      else if v ≤ -tSinh c then minRaw c
      else clamp c (if v ≥ 0 then (hypSc c |v|).1 else -(hypSc c |v|).1) := by
  rw [← sat_eq_clamp, ← absInt_eq_abs]
  rfl

theorem coshValue_eq :
    coshValue c v = if |v| ≥ tCosh c then maxRaw c else clamp c (max (hypSc c |v|).2 (one c)) := by
  rw [← sat_eq_clamp, ← absInt_eq_abs]
  rfl

theorem tanhValue_eq :
    tanhValue c v =
      if v ≥ tSinh c then one c
      else if v ≤ -tSinh c then -one c
      else withSign v (min (fdiv c (hypSc c |v|).1 (hypSc c |v|).2) (one c)) := by
  rw [← absInt_eq_abs]
  rfl

theorem cothValue_eq :
    cothValue c v =
      if v ≥ tSinh c then one c
      else if v ≤ -tSinh c then -one c
      else clamp c (if v > 0 then cothMagnitude c |v| else -cothMagnitude c |v|) := by
  rw [← sat_eq_clamp, ← absInt_eq_abs]
  rfl

end Values

/-- The magnitude of the hyperbolic cotangent near 0 and away from it, with its quotients as rational floors. -/
theorem cothMagnitude_eq (c : Config) (a : ℤ) :
    cothMagnitude c a =
      if a < taylorT c then ⌊(2 : ℚ) ^ (2 * c.frac) / a⌋ + cothSeries c a
      else ⌊((hypSc c a).2 * 2 ^ c.frac : ℚ) / (hypSc c a).1⌋ := by
  simp only [cothMagnitude, floorDiv_eq_floor, fdiv_eq_floor, Int.cast_pow, Int.cast_ofNat]

theorem taylorT_pos (c : Config) : 0 < taylorT c := by cases c <;> decide

theorem tSinh_pos (c : Config) : 0 < tSinh c := by cases c <;> decide

theorem oneRaw_le_maxRaw (c : Config) : one c ≤ maxRaw c := by cases c <;> decide

theorem oneRaw_le_coshValue (c : Config) (v : ℤ) : one c ≤ coshValue c v := by
  have hone := oneRaw_le_maxRaw c
  rw [coshValue_eq]
  split_ifs
  · exact hone
  · exact le_max_of_le_right (le_min hone (le_max_right ..))

/-- The quotient is at least `-ONE` because the sine is at least the negated cosine. -/
theorem abs_tanhValue_le_one (c : Config) (v : ℤ) : |tanhValue c v| ≤ one c := by
  have hone := oneRaw_pos c
  obtain ⟨hcos, hsin⟩ := hypSc_spec c (abs_nonneg v)
  have hquot : -one c ≤ fdiv c (hypSc c |v|).1 (hypSc c |v|).2 := by
    rw [fdiv, floorDiv_of_pos _ hcos]
    refine Int.le_ediv_of_mul_le hcos ?_
    calc -one c * (hypSc c |v|).2 = -(hypSc c |v|).2 * one c := by ring
      _ ≤ (hypSc c |v|).1 * one c := by gcongr
  rw [tanhValue_eq, withSign, abs_le]
  split_ifs <;> omega

theorem cothValue_mem (c : Config) (v : ℤ) : minRaw c ≤ cothValue c v ∧ cothValue c v ≤ maxRaw c := by
  have hone := oneRaw_pos c
  rw [cothValue_eq]
  split_ifs
  · exact mem_of_abs_le_one (abs_of_pos hone).le
  · exact mem_of_abs_le_one (by rw [abs_neg, abs_of_pos hone])
  all_goals exact clamp_mem ..

theorem respond_sinh (c : Config) (a : Word) : respond c (.sinh a) = Response.one c (sinhValue c (signed c a)) := rfl

theorem respond_cosh (c : Config) (a : Word) : respond c (.cosh a) = Response.one c (coshValue c (signed c a)) := rfl

theorem respond_tanh (c : Config) (a : Word) : respond c (.tanh a) = Response.one c (tanhValue c (signed c a)) := rfl

theorem respond_coth (c : Config) (a : Word) :
    respond c (.coth a) =
      if signed c a = 0 then Response.raise .cothZero else Response.one c (cothValue c (signed c a)) := rfl

/-! ## The logarithm kernel (R202 to R204) -/

/-- The sum of the hyperbolic table, by which `z` can move. -/
def htabSum (c : Config) : ℕ := ((htab c).map fun h => h.value.natAbs).sum

theorem foldl_grow_snd (l : List HEntry) (b : ℕ × ℕ) :
    (l.foldl grow b).2 = b.2 + (l.map fun h => h.value.natAbs).sum := by
  induction l generalizing b with
  | nil => rfl
  | cons h l ih => rw [List.foldl_cons, ih, grow, List.map_cons, List.sum_cons, add_assoc]

theorem natAbs_hvec_angle_le (c : Config) (x y : ℤ) : (hvec c x y 0).2.2.natAbs ≤ htabSum c := by
  have hstart : Within (max x.natAbs y.natAbs, 0) (x, y, 0) := ⟨le_max_left .., le_max_right .., le_rfl⟩
  obtain ⟨-, -, hz⟩ := Within.foldl hvecIter_moves (htab c) hstart
  rwa [foldl_grow_snd, zero_add] at hz

theorem bitlen_le {u n : ℕ} (hu : u < 2 ^ n) : bitlen u ≤ n := by
  rcases eq_or_ne u 0 with rfl | hne
  · exact Nat.zero_le n
  · have hlt := (Nat.pow_lt_pow_iff_right one_lt_two).mp ((bitlen_spec u hne).1.trans_lt hu)
    omega

section LogKernel
variable {c : Config} {u v : ℕ}

theorem natAbs_lnParts_snd_le (c : Config) (u v : ℕ) : (lnParts c u v).2.natAbs ≤ htabSum c := by
  simp only [lnParts]
  split_ifs
  · exact Nat.zero_le _
  · exact natAbs_hvec_angle_le ..

/-- The two lengths differ by at most the larger one. -/
theorem natAbs_lnParts_fst_le {n : ℕ} (hu : u < 2 ^ n) (hv : v < 2 ^ n) : (lnParts c u v).1.natAbs ≤ n := by
  have hulen := bitlen_le hu
  have hvlen := bitlen_le hv
  simp only [lnParts]
  omega

/-- The multiple of `LN2_E` that the exponents make, at the precision of a word or below it. -/
theorem natAbs_asr_mul_ln2E_le {k : ℤ} (hk : k.natAbs ≤ c.width + 1) (n : ℕ) :
    (asr (k * ln2E c) n).natAbs ≤ (c.width + 1) * (ln2E c).natAbs / 2 ^ n + 1 :=
  natAbs_asr_le (by rw [Int.natAbs_mul]; gcongr) n

theorem abs_lnRatio_le (hu : u < 2 ^ (c.width + 1)) (hv : v < 2 ^ (c.width + 1)) : |lnRatio c u v| ≤ maxRaw c := by
  have hexp := natAbs_asr_mul_ln2E_le (natAbs_lnParts_fst_le (c := c) hu hv) (extBits c - c.frac)
  have hang := natAbs_lnParts_snd_le c u v
  have hsum : (((c.width + 1) * (ln2E c).natAbs / 2 ^ (extBits c - c.frac) + 1 + 2 * htabSum c : ℕ) : ℤ) ≤ maxRaw c := by
    cases c <;> decide
  rw [lnRatio, Int.abs_eq_natAbs]
  dsimp only
  omega

theorem abs_halfLnRatio_le (hu : u < 2 ^ (c.width + 1)) (hv : v < 2 ^ (c.width + 1)) :
    |halfLnRatio c u v| ≤ maxRaw c := by
  have hexp := natAbs_asr_mul_ln2E_le (natAbs_lnParts_fst_le (c := c) hu hv) (extBits c - c.frac + 1)
  have hang := natAbs_lnParts_snd_le c u v
  have hsum : (((c.width + 1) * (ln2E c).natAbs / 2 ^ (extBits c - c.frac + 1) + 1 + htabSum c : ℕ) : ℤ) ≤ maxRaw c := by
    cases c <;> decide
  rw [halfLnRatio, Int.abs_eq_natAbs]
  dsimp only
  omega

theorem halfLnRatio_self (c : Config) (u : ℕ) : halfLnRatio c u u = 0 := by
  simp [halfLnRatio, lnParts, asr]

end LogKernel

/-! ## The inverse functions (R181 to R184) -/

theorem oneRaw_eq_cast (c : Config) : one c = (2 ^ c.frac : ℕ) := by simp [one]

theorem natAbs_signed_le (c : Config) (a : Word) : (signed c a).natAbs ≤ 2 ^ (c.width - 1) := by
  obtain ⟨hlo, hhi⟩ := signed_spec c a
  have hpow : ((2 ^ (c.width - 1) : ℕ) : ℤ) = 2 ^ (c.width - 1) := by norm_cast
  rw [minRaw] at hlo
  rw [maxRaw] at hhi
  omega

section Inverse
variable {c : Config} {n : ℕ}

/-- The radicand of ASINH has fewer than `2W` bits. -/
theorem sq_add_lt (hn : n ≤ 2 ^ (c.width - 1)) : n ^ 2 + 2 ^ (2 * c.frac) < 2 ^ (2 * c.width - 1) := by
  have hends : (2 ^ (c.width - 1)) ^ 2 + 2 ^ (2 * c.frac) < 2 ^ (2 * c.width - 1) := by cases c <;> decide
  have hsq := Nat.pow_le_pow_left hn 2
  omega

theorem sq_sub_lt (hn : n ≤ 2 ^ (c.width - 1)) : n ^ 2 - 2 ^ (2 * c.frac) < 2 ^ (2 * c.width - 1) :=
  (Nat.sub_le ..).trans_lt ((Nat.le_add_right ..).trans_lt (sq_add_lt hn))

/-- The argument of the logarithm has one bit more than a word. -/
theorem add_sqrt_lt {p : ℕ} (hn : n ≤ 2 ^ (c.width - 1)) (hp : p < 2 ^ (2 * c.width - 1)) :
    n + Nat.sqrt p < 2 ^ (c.width + 1) := by
  have hroot : Nat.sqrt p < 2 ^ c.width := by
    rw [Nat.sqrt_lt', ← pow_mul]
    exact hp.trans_le (Nat.pow_le_pow_right two_pos (by omega))
  have hword : 2 ^ (c.width - 1) ≤ 2 ^ c.width := Nat.pow_le_pow_right two_pos (by omega)
  rw [pow_succ]
  omega

theorem two_pow_frac_le (c : Config) : 2 ^ c.frac ≤ 2 ^ (c.width - 1) :=
  Nat.pow_le_pow_right two_pos (by cases c <;> decide)

theorem two_pow_frac_lt (c : Config) : 2 ^ c.frac < 2 ^ (c.width + 1) :=
  Nat.pow_lt_pow_right one_lt_two (by cases c <;> decide)

/-- A product with a fraction from 0 to `ONE` lies between 0 and the other factor. -/
theorem fmul_mem_of_le_one {a b : ℤ} (ha : 0 ≤ a) (hone : a ≤ one c) (hb : 0 ≤ b) :
    0 ≤ fmul c a b ∧ fmul c a b ≤ b := by
  refine ⟨fmul_nonneg c ha hb, ?_⟩
  calc fmul c a b = fmul c b a := fmul_comm ..
    _ ≤ fmul c b (one c) := Int.ediv_le_ediv (by positivity) (by gcongr)
    _ = b := fmul_one c b

/-- Every bracket of the polynomial lies between 0 and its leading coefficient. -/
theorem taylorAsinh_mem {a : ℤ} (ha : 0 ≤ a) (hone : a ≤ one c) : 0 ≤ taylorAsinh c a ∧ taylorAsinh c a ≤ one c := by
  have hcoeff : 0 ≤ c5_112 c ∧ c5_112 c ≤ c3_40 c ∧ c3_40 c ≤ c1_6 c ∧ c1_6 c ≤ one c := by cases c <;> decide
  obtain ⟨h112, h40, h6, h1⟩ := hcoeff
  obtain ⟨hsq, hsq'⟩ := fmul_mem_of_le_one ha hone ha
  obtain ⟨hlo, hhi⟩ := fmul_mem_of_le_one hsq (hsq'.trans hone) h112
  obtain ⟨hlo', hhi'⟩ := fmul_mem_of_le_one hsq (hsq'.trans hone) (sub_nonneg.mpr (hhi.trans h40))
  obtain ⟨hlo'', hhi''⟩ := fmul_mem_of_le_one hsq (hsq'.trans hone) (show 0 ≤ c1_6 c - _ by linarith)
  obtain ⟨hres, hres'⟩ := fmul_mem_of_le_one ha hone (show 0 ≤ one c - _ by linarith)
  exact ⟨hres, hres'.trans (by linarith)⟩

theorem abs_withSign_le {v m b : ℤ} (hm : |m| ≤ b) : |withSign v m| ≤ b := by
  unfold withSign
  split_ifs
  · exact hm
  · rwa [abs_neg]

/-- The type reaches one further below 0 than above (R10). -/
theorem minRaw_eq_neg_sub (c : Config) : minRaw c = -maxRaw c - 1 := by cases c <;> decide

theorem mem_of_abs_le_maxRaw {v : ℤ} (hv : |v| ≤ maxRaw c) : minRaw c ≤ v ∧ v ≤ maxRaw c := by
  have hends := minRaw_eq_neg_sub c
  rw [abs_le] at hv
  omega

end Inverse

section InverseValues
variable (c : Config) (a : Word)

/-- The radicand of ASINH is within the range of the Newton steps (R181, R221). -/
theorem asinhValue_eq :
    asinhValue c (signed c a) =
      withSign (signed c a)
        (if |signed c a| < taylorT c then taylorAsinh c |signed c a|
        else lnRatio c ((signed c a).natAbs + Nat.sqrt ((signed c a).natAbs ^ 2 + 2 ^ (2 * c.frac))) (2 ^ c.frac)) := by
  have hrad : (|signed c a| * |signed c a| + one c * one c).toNat = (signed c a).natAbs ^ 2 + 2 ^ (2 * c.frac) := by
    rw [Int.abs_eq_natAbs, oneRaw_eq_cast]
    norm_cast
    rw [two_mul, pow_add, sq]
  have hlog : |signed c a|.toNat = (signed c a).natAbs := by rw [Int.abs_eq_natAbs, Int.toNat_natCast]
  simp only [asinhValue, absInt_eq_abs, hrad, hlog]
  rw [isqrtNr_eq_sqrt (sq_add_lt (natAbs_signed_le c a)), oneRaw_eq_cast, Int.toNat_natCast]

theorem respond_asinh : respond c (.asinh a) = Response.one c (asinhValue c (signed c a)) := rfl

theorem abs_asinhValue_le : |asinhValue c (signed c a)| ≤ maxRaw c := by
  rw [asinhValue_eq]
  apply abs_withSign_le
  split_ifs with hsmall
  · have hthreshold : taylorT c ≤ one c := by cases c <;> decide
    obtain ⟨hlo, hhi⟩ := taylorAsinh_mem (abs_nonneg _) (hsmall.le.trans hthreshold)
    rw [abs_of_nonneg hlo]
    exact hhi.trans (oneRaw_le_maxRaw c)
  · have hn := natAbs_signed_le c a
    exact abs_lnRatio_le (add_sqrt_lt hn (sq_add_lt hn)) (two_pow_frac_lt c)

theorem respond_acosh :
    respond c (.acosh a) =
      if signed c a < one c then Response.raise .acoshDomain
      else Response.one c
        (lnRatio c ((signed c a).natAbs + Nat.sqrt ((signed c a).natAbs ^ 2 - 2 ^ (2 * c.frac))) (2 ^ c.frac)) := by
  have hpos := oneRaw_pos c
  have hdef : respond c (.acosh a) =
      if signed c a < one c then Response.raise .acoshDomain
      else Response.one c (lnRatio c
        ((signed c a).toNat + isqrtNr c (signed c a * signed c a - one c * one c).toNat) (one c).toNat) := rfl
  rw [hdef]
  split_ifs with hlt
  · rfl
  · have hrad : (signed c a * signed c a - one c * one c).toNat = (signed c a).natAbs ^ 2 - 2 ^ (2 * c.frac) := by
      rw [← Int.natAbs_mul_self' (signed c a), oneRaw_eq_cast, ← Nat.cast_mul, ← Nat.cast_mul, Int.toNat_sub, two_mul, pow_add, sq]
    have hlog : (signed c a).toNat = (signed c a).natAbs := by omega
    rw [hrad, hlog, isqrtNr_eq_sqrt (sq_sub_lt (natAbs_signed_le c a)), oneRaw_eq_cast, Int.toNat_natCast]

/-- The value of ATANH inside its domain (R183). -/
def atanhValue (c : Config) (v : ℤ) : ℤ :=
  withSign v (halfLnRatio c (2 ^ c.frac + v.natAbs) (2 ^ c.frac - v.natAbs))

theorem respond_atanh :
    respond c (.atanh a) =
      if |signed c a| ≥ one c then Response.raise .atanhDomain
      else Response.one c (atanhValue c (signed c a)) := by
  have hadd : (one c + |signed c a|).toNat = 2 ^ c.frac + (signed c a).natAbs := by
    rw [Int.abs_eq_natAbs, oneRaw_eq_cast, ← Nat.cast_add, Int.toNat_natCast]
  have hsub : (one c - |signed c a|).toNat = 2 ^ c.frac - (signed c a).natAbs := by
    rw [Int.abs_eq_natAbs, oneRaw_eq_cast, Int.toNat_sub]
  rw [atanhValue, ← hadd, ← hsub, ← absInt_eq_abs]
  rfl

/-- The value of ACOTH inside its domain (R184). -/
def acothValue (c : Config) (v : ℤ) : ℤ :=
  withSign v (halfLnRatio c (v.natAbs + 2 ^ c.frac) (v.natAbs - 2 ^ c.frac))

theorem respond_acoth :
    respond c (.acoth a) =
      if |signed c a| ≤ one c then Response.raise .acothDomain
      else Response.one c (acothValue c (signed c a)) := by
  have hadd : (|signed c a| + one c).toNat = (signed c a).natAbs + 2 ^ c.frac := by
    rw [Int.abs_eq_natAbs, oneRaw_eq_cast, ← Nat.cast_add, Int.toNat_natCast]
  have hsub : (|signed c a| - one c).toNat = (signed c a).natAbs - 2 ^ c.frac := by
    rw [Int.abs_eq_natAbs, oneRaw_eq_cast, Int.toNat_sub]
  rw [acothValue, ← hadd, ← hsub, ← absInt_eq_abs]
  rfl

theorem natAbs_signed_add_lt : (signed c a).natAbs + 2 ^ c.frac < 2 ^ (c.width + 1) := by
  have hn := natAbs_signed_le c a
  have hone := two_pow_frac_le c
  have hword : 2 ^ (c.width - 1) < 2 ^ c.width := Nat.pow_lt_pow_right one_lt_two (by have := width_pos c; omega)
  rw [pow_succ]
  omega

theorem abs_atanhValue_le : |atanhValue c (signed c a)| ≤ maxRaw c :=
  abs_withSign_le (abs_halfLnRatio_le (by rw [add_comm]; exact natAbs_signed_add_lt c a)
    ((Nat.sub_le ..).trans_lt (two_pow_frac_lt c)))

theorem abs_acothValue_le : |acothValue c (signed c a)| ≤ maxRaw c :=
  abs_withSign_le (abs_halfLnRatio_le (natAbs_signed_add_lt c a)
    ((Nat.sub_le ..).trans_lt ((Nat.le_add_right ..).trans_lt (natAbs_signed_add_lt c a))))

end InverseValues

/-! ## The sign of the operand (R173, R150, R152, R153) -/

section Signs
variable (c : Config) (v : ℤ)

/-- A sign put on a function of the magnitude makes it odd, when it is 0 at 0. -/
theorem withSign_neg {v m : ℤ} (hzero : v = 0 → m = 0) : withSign (-v) m = -withSign v m := by
  unfold withSign
  split_ifs <;> omega

theorem fmul_zero_left (a : ℤ) : fmul c 0 a = 0 := by simp [fmul, asr]

theorem hypSc_zero_fst : (hypSc c 0).1 = 0 := by
  rw [hypSc_eq (Prod.eta _).symm (Prod.eta _).symm, if_pos (taylorT_pos c)]
  exact fmul_zero_left ..

theorem tanhValue_neg : tanhValue c (-v) = -tanhValue c v := by
  have hpos := tSinh_pos c
  have hzero : v = 0 → min (fdiv c (hypSc c |v|).1 (hypSc c |v|).2) (one c) = 0 := by
    rintro rfl
    rw [abs_zero, hypSc_zero_fst, fdiv_eq_floor]
    simp [(oneRaw_pos c).le]
  have hmiddle := withSign_neg hzero
  rw [tanhValue_eq, tanhValue_eq, abs_neg]
  split_ifs <;> omega

theorem asinhValue_neg : asinhValue c (-v) = -asinhValue c v := by
  unfold asinhValue
  rw [absInt_eq_abs, absInt_eq_abs, abs_neg]
  apply withSign_neg
  rintro rfl
  rw [abs_zero, if_pos (taylorT_pos c)]
  exact fmul_zero_left ..

theorem atanhValue_neg : atanhValue c (-v) = -atanhValue c v := by
  unfold atanhValue
  rw [Int.natAbs_neg]
  apply withSign_neg
  rintro rfl
  exact halfLnRatio_self ..

/-- ACOTH has no value at 0. -/
theorem acothValue_neg {v : ℤ} (hv : v ≠ 0) : acothValue c (-v) = -acothValue c v := by
  unfold acothValue
  rw [Int.natAbs_neg]
  exact withSign_neg fun h => absurd h hv

/-- A clamp that leaves the range symmetric about 0 commutes with the sign. -/
theorem clamp_neg_of_lt {v : ℤ} (hlo : minRaw c < clamp c v) (hhi : clamp c v < maxRaw c) : clamp c (-v) = -clamp c v := by
  have hends := minRaw_eq_neg_sub c
  unfold clamp at *
  omega

theorem sinhValue_neg {v : ℤ} (hlo : minRaw c < sinhValue c v) (hhi : sinhValue c v < maxRaw c) :
    sinhValue c (-v) = -sinhValue c v := by
  have hpos := tSinh_pos c
  have hmiddle : withSign (-v) (hypSc c |v|).1 = -withSign v (hypSc c |v|).1 :=
    withSign_neg fun hzero => by rw [hzero, abs_zero, hypSc_zero_fst]
  have hneg := clamp_neg_of_lt c (v := withSign v (hypSc c |v|).1)
  rw [sinhValue_eq, ← withSign] at hlo hhi ⊢
  rw [sinhValue_eq, ← withSign, abs_neg, hmiddle]
  split_ifs at * <;> omega

theorem cothValue_neg {v : ℤ} (hv : v ≠ 0) (hlo : minRaw c < cothValue c v) (hhi : cothValue c v < maxRaw c) :
    cothValue c (-v) = -cothValue c v := by
  have hpos := tSinh_pos c
  have hneg := clamp_neg_of_lt c (v := cothMagnitude c |v|)
  have hneg' := clamp_neg_of_lt c (v := -cothMagnitude c |v|)
  rw [neg_neg] at hneg'
  rw [cothValue_eq] at hlo hhi ⊢
  rw [cothValue_eq, abs_neg]
  split_ifs at * <;> omega

theorem coshValue_neg : coshValue c (-v) = coshValue c v := by
  rw [coshValue_eq, coshValue_eq, abs_neg]

theorem asinW_neg : asinW c (-v) = asinW c v := by
  rw [asinW, asinW, sub_neg_eq_add, ← sub_eq_add_neg, mul_comm]

/-- The reflection in the `x` axis, for a vector that does not point to the left. -/
theorem atan2core_neg_left (y : ℤ) {x : ℤ} (hx : 0 ≤ x) : atan2core c (-y) x = -atan2core c y x := by
  unfold atan2core
  rw [Int.natAbs_neg]
  dsimp only
  split_ifs <;> omega

/-- The reflection in the `y` axis, for a vector that does not point down. -/
theorem atan2core_neg_right {y x : ℤ} (hy : 0 ≤ y) (hx : x ≠ 0) : atan2core c y (-x) = Machine.pi c - atan2core c y x := by
  unfold atan2core
  rw [Int.natAbs_neg]
  dsimp only
  split_ifs <;> omega

end Signs

/-! ## Responses to a word and to its negation (R173) -/

section Negation
variable {c : Config} {w : Word}

theorem signed_negWord (hw : signed c w ≠ minRaw c) : signed c (negWord c w) = -signed c w := by
  have hends := minRaw_eq_neg_sub c
  obtain ⟨hlo, hhi⟩ := signed_spec c w
  exact signed_word c _ (by omega) (by omega)

theorem signed_r0_of_one {r : Response} {v : ℤ} (hr : r = Response.one c v) (hv : minRaw c ≤ v ∧ v ≤ maxRaw c) :
    signed c r.r0 = v := by
  rw [hr]
  exact signed_word c v hv.1 hv.2

/-- A response of either sign: the same error, or the negated value. -/
def NegatedResponse (c : Config) (r r' : Response) : Prop := r'.err = r.err ∧ signed c r'.r0 = -signed c r.r0

theorem negatedResponse_raise (c : Config) (e : Err) : NegatedResponse c (Response.raise e) (Response.raise e) :=
  ⟨rfl, by simp [Response.raise, signed]⟩

theorem negatedResponse_one {v v' : ℤ} (hneg : v' = -v) (hv : |v| ≤ maxRaw c) :
    NegatedResponse c (Response.one c v) (Response.one c v') := by
  have hv' : |v'| ≤ maxRaw c := by rwa [hneg, abs_neg]
  refine ⟨rfl, ?_⟩
  rw [signed_r0_of_one rfl (mem_of_abs_le_maxRaw hv), signed_r0_of_one rfl (mem_of_abs_le_maxRaw hv'), hneg]

/-- A domain that is the same for `v` and `-v`, and an odd value inside it. -/
theorem negatedResponse_ite {p p' : Prop} [Decidable p] [Decidable p'] {e : Err} {v v' : ℤ} (hp : p' ↔ p)
    (hval : ¬ p → v' = -v ∧ |v| ≤ maxRaw c) :
    NegatedResponse c (if p then Response.raise e else Response.one c v)
      (if p' then Response.raise e else Response.one c v') := by
  by_cases h : p
  · rw [if_pos h, if_pos (hp.mpr h)]
    exact negatedResponse_raise c e
  · obtain ⟨hneg, hv⟩ := hval h
    rw [if_neg h, if_neg (mt hp.mp h)]
    exact negatedResponse_one hneg hv

theorem pi_le_maxRaw (c : Config) : Machine.pi c ≤ maxRaw c := by cases c <;> decide

theorem abs_le_maxRaw_of_lt {v : ℤ} (hlo : minRaw c < v) (hhi : v < maxRaw c) : |v| ≤ maxRaw c := by
  have hends := minRaw_eq_neg_sub c
  rw [abs_le]
  omega

section OddCommands
variable (hw : signed c w ≠ minRaw c)
include hw

theorem tanh_odd : NegatedResponse c (respond c (.tanh w)) (respond c (.tanh (negWord c w))) := by
  rw [respond_tanh, respond_tanh, signed_negWord hw]
  exact negatedResponse_one (tanhValue_neg ..) ((abs_tanhValue_le_one ..).trans (oneRaw_le_maxRaw c))

theorem asinh_odd : NegatedResponse c (respond c (.asinh w)) (respond c (.asinh (negWord c w))) := by
  rw [respond_asinh, respond_asinh, signed_negWord hw]
  exact negatedResponse_one (asinhValue_neg ..) (abs_asinhValue_le c w)

theorem atanh_odd : NegatedResponse c (respond c (.atanh w)) (respond c (.atanh (negWord c w))) := by
  rw [respond_atanh, respond_atanh, signed_negWord hw, abs_neg]
  exact negatedResponse_ite Iff.rfl fun _ => ⟨atanhValue_neg .., abs_atanhValue_le c w⟩

theorem acoth_odd : NegatedResponse c (respond c (.acoth w)) (respond c (.acoth (negWord c w))) := by
  rw [respond_acoth, respond_acoth, signed_negWord hw, abs_neg]
  refine negatedResponse_ite Iff.rfl fun hin => ⟨acothValue_neg c ?_, abs_acothValue_le c w⟩
  intro hzero
  exact hin (by rw [hzero, abs_zero]; exact (oneRaw_pos c).le)

theorem atan_odd : NegatedResponse c (respond c (.atan w)) (respond c (.atan (negWord c w))) := by
  have hresp (a : Word) : respond c (.atan a) = Response.one c (atan2core c (signed c a) (one c)) := rfl
  rw [hresp, hresp, signed_negWord hw]
  exact negatedResponse_one (atan2core_neg_left _ _ (oneRaw_pos c).le) ((abs_atan2core_le_pi ..).trans (pi_le_maxRaw c))

theorem asin_odd : NegatedResponse c (respond c (.asin w)) (respond c (.asin (negWord c w))) := by
  rw [respond_asin, respond_asin, signed_negWord hw, abs_neg, asinW_neg]
  exact negatedResponse_ite Iff.rfl fun _ =>
    ⟨atan2core_neg_left _ _ (asinW_nonneg ..), (abs_atan2core_le_pi ..).trans (pi_le_maxRaw c)⟩

/-- Where the result is not an end of the type: there the negation of one end is not the other (log entry 10). -/
theorem sinh_odd (hlo : minRaw c < signed c (respond c (.sinh w)).r0) (hhi : signed c (respond c (.sinh w)).r0 < maxRaw c) :
    NegatedResponse c (respond c (.sinh w)) (respond c (.sinh (negWord c w))) := by
  rw [signed_r0_of_one (respond_sinh c w) (sinhValue_mem ..)] at hlo hhi
  rw [respond_sinh, respond_sinh, signed_negWord hw]
  exact negatedResponse_one (sinhValue_neg c hlo hhi) (abs_le_maxRaw_of_lt hlo hhi)

theorem coth_odd (hlo : minRaw c < signed c (respond c (.coth w)).r0) (hhi : signed c (respond c (.coth w)).r0 < maxRaw c) :
    NegatedResponse c (respond c (.coth w)) (respond c (.coth (negWord c w))) := by
  have hvalue (hne : signed c w ≠ 0) : signed c (respond c (.coth w)).r0 = cothValue c (signed c w) :=
    signed_r0_of_one (by rw [respond_coth, if_neg hne]) (cothValue_mem ..)
  rw [respond_coth c w, respond_coth c (negWord c w), signed_negWord hw]
  refine negatedResponse_ite neg_eq_zero fun hne => ?_
  rw [hvalue hne] at hlo hhi
  exact ⟨cothValue_neg c hne hlo hhi, abs_le_maxRaw_of_lt hlo hhi⟩

theorem cosh_even : respond c (.cosh (negWord c w)) = respond c (.cosh w) := by
  rw [respond_cosh, respond_cosh, signed_negWord hw, coshValue_neg]

theorem acos_negWord (hne : signed c w ≠ 0) (hok : (respond c (.acos w)).err = .none) :
    signed c (respond c (.acos (negWord c w))).r0 = Machine.pi c - signed c (respond c (.acos w)).r0 := by
  have hin : ¬ |signed c w| > one c := by
    intro hout
    rw [respond_acos, if_pos hout] at hok
    cases hok
  have hangle (v : ℤ) : minRaw c ≤ atan2core c (asinW c v) v ∧ atan2core c (asinW c v) v ≤ maxRaw c :=
    mem_of_abs_le_pi (abs_atan2core_le_pi ..)
  have hresp {a : Word} (ha : |signed c a| = |signed c w|) :
      signed c (respond c (.acos a)).r0 = atan2core c (asinW c (signed c a)) (signed c a) :=
    signed_r0_of_one (by rw [respond_acos, ha, if_neg hin]) (hangle _)
  have hneg := signed_negWord hw
  rw [hresp rfl, hresp (by rw [hneg, abs_neg]), hneg, asinW_neg]
  exact atan2core_neg_right c (asinW_nonneg ..) hne

end OddCommands

end Negation

end Sys2Proof.Machine
end

section
/-! SUPPORT. The statements about the hyperbolic commands (43_hyperbolic.md). -/

namespace Sys2Proof.Machine

/-- Settles O24: Euclidean division by `LN2_E`, to the nearest multiple. -/
theorem logTwoReductionExact : Obligations.LogTwoReductionExact := by
  intro c a
  obtain ⟨hlo, hhi⟩ := ln2Remainder_mem c a
  refine ⟨nearestLn2 c a, ln2Remainder c a, (add_sub_cancel ..).symm, hlo, hhi, ?_, ?_⟩
  all_goals rw [← asr_eq_floor]
  · rfl
  · exact two_mul_abs_reduceLn2_snd_le c a

/-- Settles O25: every iteration leaves most of the margin between the cosine and the sine, and the table does not use it up. -/
theorem hyperbolicKernel : Obligations.HyperbolicKernel := by
  refine ⟨fun c r => ⟨fun hr => hr ▸ hypParts_zero c, hypParts_of_ne_zero, fun _ => ?margin⟩, ?reconstruction⟩
  case margin =>
    have hmargin := hypParts_margin c r
    omega
  case reconstruction =>
    intro c a k r ch sh ha _ hred hparts
    have hk : 0 ≤ k := by
      have hfst := reduceLn2_fst_nonneg c ha
      rwa [hred] at hfst
    obtain ⟨n, rfl⟩ := Int.eq_ofNat_of_zero_le hk
    refine ⟨n, rfl, ?_, (hypSc_spec c ha).1⟩
    simp only [hypSc_eq hred hparts, asr_eq_floor, pow_one, Int.toNat_natCast]

/-- Settles O28: the cosine is positive and the sine not below its negation, so that the quotient is at least `-ONE`. -/
theorem hyperbolicTangent : Obligations.HyperbolicTangent := by
  refine ⟨readsA_of_encode (fun _ => rfl) (fun _ => .inl rfl), ?_⟩
  rintro s a v t rfl rfl
  have habs := abs_tanhValue_le_one s.cfg (signed s.cfg a)
  refine ⟨tanhValue s.cfg (signed s.cfg a), answersOne_of_respond (respond_tanh ..) (mem_of_abs_le_one habs), habs, ?_⟩
  rw [tanhValue_eq, fdiv_eq_floor, withSign]

/-- Settles O29. -/
theorem hyperbolicCotangent : Obligations.HyperbolicCotangent := by
  refine ⟨readsA_of_encode (fun _ => rfl) (fun _ => .inl rfl), ?_⟩
  rintro s a v mag rfl rfl
  rw [← cothMagnitude_eq, ← cothValue_eq]
  refine ⟨fun hzero => answersError_of_respond ?_, fun hne => answersOne_of_respond ?_ (cothValue_mem ..)⟩
  · rw [respond_coth, if_pos hzero]
  · rw [respond_coth, if_neg hne]

/-- Settles O30: the radicand is within the range of the Newton steps, and every term of the result within that of the type. -/
theorem inverseHyperbolicSine : Obligations.InverseHyperbolicSine := by
  refine ⟨readsA_of_encode (fun _ => rfl) (fun _ => .inl rfl), ?_⟩
  rintro s a v m rfl rfl
  have hvalue := asinhValue_eq s.cfg a
  rw [withSign] at hvalue
  rw [← hvalue]
  exact answersOne_of_respond (respond_asinh ..) (mem_of_abs_le_maxRaw (abs_asinhValue_le s.cfg a))

/-- Settles O31. -/
theorem inverseHyperbolicCosine : Obligations.InverseHyperbolicCosine := by
  refine ⟨readsA_of_encode (fun _ => rfl) (fun _ => .inl rfl), ?_⟩
  rintro s a v rfl
  refine ⟨fun hout => answersError_of_respond ?_, fun hin => answersOne_of_respond ?_ (mem_of_abs_le_maxRaw ?_)⟩
  · rw [respond_acosh, if_pos hout]
  · rw [respond_acosh, if_neg hin.not_gt]
  · have hn := natAbs_signed_le s.cfg a
    exact abs_lnRatio_le (add_sqrt_lt hn (sq_sub_lt hn)) (two_pow_frac_lt s.cfg)

/-- Settles O32. -/
theorem inverseHyperbolicTangent : Obligations.InverseHyperbolicTangent := by
  refine ⟨readsA_of_encode (fun _ => rfl) (fun _ => .inl rfl), ?_⟩
  rintro s a v h rfl rfl
  refine ⟨fun hout => answersError_of_respond ?_,
    fun hin => answersOne_of_respond ?_ (mem_of_abs_le_maxRaw (abs_atanhValue_le s.cfg a))⟩
  · rw [respond_atanh, if_pos hout]
  · rw [respond_atanh, if_neg hin.not_ge]
    rfl

/-- Settles O33. -/
theorem inverseHyperbolicCotangent : Obligations.InverseHyperbolicCotangent := by
  refine ⟨readsA_of_encode (fun _ => rfl) (fun _ => .inl rfl), ?_⟩
  rintro s a v h rfl rfl
  refine ⟨fun hout => answersError_of_respond ?_,
    fun hin => answersOne_of_respond ?_ (mem_of_abs_le_maxRaw (abs_acothValue_le s.cfg a))⟩
  · rw [respond_acoth, if_pos hout]
  · rw [respond_acoth, if_neg hin.not_ge]
    rfl

/-- Settles O34: the domains and the magnitudes depend on `|v|` alone, and the sign is put on last. -/
theorem functionSymmetries : Obligations.FunctionSymmetries := by
  intro c w hw
  refine ⟨?odd, ?unsaturated, cosh_even hw, acos_negWord hw⟩
  case odd =>
    simp only [List.forall_mem_cons]
    exact ⟨tanh_odd hw, asinh_odd hw, atanh_odd hw, acoth_odd hw, atan_odd hw, asin_odd hw, List.forall_mem_nil _⟩
  case unsaturated =>
    simp only [List.forall_mem_cons]
    exact ⟨sinh_odd hw, coth_odd hw, List.forall_mem_nil _⟩

/-- Settles O26. -/
theorem hyperbolicSine : Obligations.HyperbolicSine := by
  refine ⟨readsA_of_encode (fun _ => rfl) (fun _ => .inl rfl), ?_⟩
  rintro s a v rfl
  rw [← sinhValue_eq]
  exact answersOne_of_respond (respond_sinh ..) (sinhValue_mem ..)

/-- Settles O27. -/
theorem hyperbolicCosine : Obligations.HyperbolicCosine := by
  refine ⟨readsA_of_encode (fun _ => rfl) (fun _ => .inl rfl), ?_⟩
  rintro s a v rfl
  exact ⟨coshValue s.cfg (signed s.cfg a), answersOne_of_respond (respond_cosh ..) (coshValue_mem ..), oneRaw_le_coshValue ..,
    coshValue_eq ..⟩

end Sys2Proof.Machine
end

section
/-! SUPPORT. Facts of the exponential and logarithmic commands (44_exponential_log.md rules R200 to R208): the kernel's exponential and
its scaling by a power of two, the normalised mantissas of the logarithm, and the range of its products with a constant. -/

namespace Sys2Proof.Machine

/-! ## The exponential of a reduced argument (R171, R200) -/

/-- The bound of `x` and `y` does not depend on that of the angle. -/
theorem foldl_grow_fst (l : List HEntry) (m n n' : ℕ) : (l.foldl grow (m, n)).1 = (l.foldl grow (m, n')).1 := by
  induction l generalizing m n n' with
  | nil => rfl
  | cons h l ih => exact ih ..

/-- The factors `1 + 2^-s` of the table leave the cosine far inside the type, whatever the angle. -/
theorem two_mul_hypParts_fst_le (c : Config) (r : ℤ) : 2 * (hypParts c r).1 ≤ maxRaw c := by
  rcases eq_or_ne r 0 with rfl | hne
  · cases c <;> decide
  · have hstart : Within ((kH c).natAbs, r.natAbs) (kH c, 0, r) := ⟨le_rfl, Nat.zero_le _, le_rfl⟩
    obtain ⟨hx, -, -⟩ := Within.foldl hrotIter_moves (htab c) hstart
    have hroom : 2 * (((htab c).foldl grow ((kH c).natAbs, 0)).1 : ℤ) ≤ maxRaw c := by cases c <;> decide
    rw [foldl_grow_fst _ _ _ 0] at hx
    rw [hypParts_of_ne_zero hne, hrot]
    dsimp only
    omega

/-- The cosine exceeds the magnitude of the sine, so that their sum is positive and at most twice the cosine. -/
theorem hypParts_add_mem (c : Config) (r : ℤ) :
    0 < (hypParts c r).1 + (hypParts c r).2 ∧ (hypParts c r).1 + (hypParts c r).2 ≤ maxRaw c := by
  have hmargin := hypParts_margin c r
  have hroom := two_mul_hypParts_fst_le c r
  rw [Int.abs_eq_natAbs] at hmargin
  omega

/-! ## The scaling by a power of two (R200, R201) -/

theorem scaleExp_eq (c : Config) (e k : ℤ) :
    scaleExp c e k = if k ≥ 0 then clamp c (e * 2 ^ k.toNat) else ⌊(e : ℚ) / 2 ^ (-k).toNat⌋ := by
  rw [scaleExp, sat_eq_clamp, asr_eq_floor, shl]

/-- A shift to the left is clamped, and one to the right leaves a raw value one. -/
theorem scaleExp_mem {c : Config} {e : ℤ} (hlo : minRaw c ≤ e) (hhi : e ≤ maxRaw c) (k : ℤ) :
    minRaw c ≤ scaleExp c e k ∧ scaleExp c e k ≤ maxRaw c := by
  rw [scaleExp, sat_eq_clamp]
  split_ifs
  · exact clamp_mem c _
  · exact asr_mem hlo hhi _

/-- What EXP and POW2 share: `MAX` from the upper threshold on, 0 below the lower one, and between them `2^k` times the exponential
of the reduced argument `r`. -/
def saturatedExp (c : Config) (hi lo v k r : ℤ) : ℤ :=
  if v ≥ hi then maxRaw c
  else if v < lo then 0
  else scaleExp c ((hypParts c r).1 + (hypParts c r).2) k

theorem saturatedExp_eq {c : Config} {hi lo v k r ch sh : ℤ} (hparts : hypParts c r = (ch, sh)) :
    saturatedExp c hi lo v k r =
      if v ≥ hi then maxRaw c
      else if v < lo then 0
      else if k ≥ 0 then clamp c ((ch + sh) * 2 ^ k.toNat)
      else ⌊((ch + sh : ℤ) : ℚ) / 2 ^ (-k).toNat⌋ := by
  rw [saturatedExp, hparts, scaleExp_eq]

theorem saturatedExp_mem (c : Config) (hi lo v k r : ℤ) :
    minRaw c ≤ saturatedExp c hi lo v k r ∧ saturatedExp c hi lo v k r ≤ maxRaw c := by
  obtain ⟨hpos, hle⟩ := hypParts_add_mem c r
  unfold saturatedExp
  split_ifs
  · exact ⟨minRaw_le_maxRaw c, le_rfl⟩
  · exact ⟨minRaw_nonpos c, maxRaw_nonneg c⟩
  · exact scaleExp_mem ((minRaw_nonpos c).trans hpos.le) hle k

theorem respond_exp (c : Config) (a : Word) :
    respond c (.exp a) =
      Response.one c (saturatedExp c (tExpHi c) (tExpLo c) (signed c a)
        (reduceLn2 c (signed c a)).1 (reduceLn2 c (signed c a)).2) := rfl

/-- The integer nearest to `v / 2^F`, ties upward, is the shift of `v + HALF` (R201). -/
theorem asr_add_half_eq_floor (c : Config) (v : ℤ) : asr (v + half c) c.frac = ⌊(v : ℚ) / 2 ^ c.frac + 1 / 2⌋ := by
  have hhalf : (half c : ℚ) / 2 ^ c.frac = 1 / 2 := by cases c <;> norm_num [half, Config.frac]
  rw [asr_eq_floor, Int.cast_add, add_div, hhalf]

theorem respond_pow2 (c : Config) (a : Word) :
    respond c (.pow2 a) =
      Response.one c (saturatedExp c (tPow2Hi c) (tPow2Lo c) (signed c a) (asr (signed c a + half c) c.frac)
        (fmul c (signed c a - asr (signed c a + half c) c.frac * 2 ^ c.frac) (ln2 c))) := rfl

/-! ## The normalised mantissas (R202) -/

/-- A value with its leading one at or above bit `l` has it at or above bit `n` after the scaling. -/
theorem le_scaleBy {v l : ℕ} (hv : 2 ^ l ≤ v) (n : ℕ) : 2 ^ n ≤ scaleBy v ((n : ℤ) - l) := by
  rcases le_or_gt l n with h | h
  · rw [scaleBy_of_le v h]
    calc 2 ^ n = 2 ^ l * 2 ^ (n - l) := by rw [← pow_add, Nat.add_sub_cancel' h]
      _ ≤ v * 2 ^ (n - l) := by gcongr
  · rw [scaleBy_of_lt v h, Nat.le_div_iff_mul_le (by positivity), ← pow_add, Nat.add_sub_cancel' h.le]
    exact hv

section LogKernel
variable (c : Config) {u v : ℕ}

theorem bitlen_of_pos (hu : 0 < u) : bitlen u = Nat.log 2 u + 1 := by
  rw [bitlen, if_neg hu.ne', Nat.log2_eq_log_two]

theorem norm1_eq (hu : 0 < u) : norm1 c u = scaleBy u (((c.width - 6 : ℕ) : ℤ) - Nat.log 2 u) := by
  rw [norm1, bitlen_of_pos hu, Nat.cast_add, Nat.cast_one, add_sub_cancel_right, pNorm]

/-- The leading one of the mantissa is at bit `PNORM`. -/
theorem norm1_mem (hu : 0 < u) : 2 ^ (c.width - 6) ≤ norm1 c u ∧ norm1 c u < 2 ^ (c.width - 5) := by
  have hbit : c.width - 5 = c.width - 6 + 1 := by cases c <;> rfl
  rw [norm1_eq c hu, hbit]
  exact ⟨le_scaleBy (Nat.pow_log_le_self 2 hu.ne') _, scaleBy_lt (Nat.lt_pow_succ_log_self one_lt_two u) _⟩

theorem norm1_of_log_le (hu : 0 < u) (hlog : Nat.log 2 u ≤ c.width - 6) :
    norm1 c u = u * 2 ^ (c.width - 6 - Nat.log 2 u) := by
  rw [norm1_eq c hu, scaleBy_of_le u hlog]

theorem norm1_of_lt_log (hu : 0 < u) (hlog : c.width - 6 < Nat.log 2 u) :
    norm1 c u = u / 2 ^ (Nat.log 2 u - (c.width - 6)) := by
  rw [norm1_eq c hu, scaleBy_of_lt u hlog]

/-- Each mantissa is less than twice the other, which puts them inside the convergence range of the vectoring (R119). -/
theorem three_mul_abs_norm1_sub_lt (hu : 0 < u) (hv : 0 < v) :
    3 * |(norm1 c u : ℤ) - norm1 c v| < norm1 c u + norm1 c v := by
  obtain ⟨hulo, huhi⟩ := norm1_mem c hu
  obtain ⟨hvlo, hvhi⟩ := norm1_mem c hv
  have hbit : 2 ^ (c.width - 5) = 2 * 2 ^ (c.width - 6) := by cases c <;> rfl
  rw [Int.abs_eq_natAbs]
  omega

theorem lnParts_eq (hu : 0 < u) (hv : 0 < v) :
    lnParts c u v =
      ((Nat.log 2 u : ℤ) - Nat.log 2 v,
        if norm1 c u = norm1 c v then 0
        else (hvec c (norm1 c u + norm1 c v) ((norm1 c u : ℤ) - norm1 c v) 0).2.2) := by
  simp only [lnParts, bitlen_of_pos hu, bitlen_of_pos hv, sub_eq_zero, Nat.cast_inj]
  congr 1
  omega

theorem lnRatio_eq {k z : ℤ} (hparts : lnParts c u v = (k, z)) :
    lnRatio c u v = ⌊((k * ln2E c : ℤ) : ℚ) / 2 ^ (c.width - c.frac)⌋ + 2 * z := by
  rw [lnRatio, hparts, ← asr_eq_floor, extBits]

theorem halfLnRatio_eq {k z : ℤ} (hparts : lnParts c u v = (k, z)) :
    halfLnRatio c u v = ⌊((k * ln2E c : ℤ) : ℚ) / 2 ^ (c.width - c.frac + 1)⌋ + z := by
  rw [halfLnRatio, hparts, ← asr_eq_floor, extBits]

end LogKernel

/-! ## The three logarithms of a word (R205 to R208) -/

section Logarithms
variable (c : Config) (a : Word)

/-- How far the exponents of two words and the table can take a logarithm. -/
def lnBound : ℕ := (c.width + 1) * (ln2E c).natAbs / 2 ^ (c.width - c.frac) + 1 + 2 * htabSum c

theorem natAbs_lnRatio_le {u v : ℕ} (hu : u < 2 ^ (c.width + 1)) (hv : v < 2 ^ (c.width + 1)) :
    (lnRatio c u v).natAbs ≤ lnBound c := by
  have hexp := natAbs_asr_mul_ln2E_le (natAbs_lnParts_fst_le (c := c) hu hv) (c.width - c.frac)
  have hang := natAbs_lnParts_snd_le c u v
  rw [lnRatio_eq c (Prod.eta _).symm, ← asr_eq_floor, lnBound]
  omega

/-- The logarithm of a word, its sign left aside: the value of LN for a positive word. -/
def lnOf : ℤ := lnRatio c (signed c a).natAbs (2 ^ c.frac)

theorem natAbs_lnOf_le : (lnOf c a).natAbs ≤ lnBound c :=
  natAbs_lnRatio_le c ((Nat.le_add_right ..).trans_lt (natAbs_signed_add_lt c a)) (two_pow_frac_lt c)

theorem abs_lnOf_le : |lnOf c a| ≤ maxRaw c :=
  abs_lnRatio_le ((Nat.le_add_right ..).trans_lt (natAbs_signed_add_lt c a)) (two_pow_frac_lt c)

/-- The bound of the logarithm leaves room for a factor up to `INV_LN2`. -/
theorem abs_fmul_lnOf_le {m : ℤ} (hm : m.natAbs ≤ (invLn2 c).natAbs) : |fmul c (lnOf c a) m| ≤ maxRaw c := by
  have hprod : (lnOf c a * m).natAbs ≤ lnBound c * (invLn2 c).natAbs := by
    rw [Int.natAbs_mul]
    exact Nat.mul_le_mul (natAbs_lnOf_le c a) hm
  have hroom : ((lnBound c * (invLn2 c).natAbs / 2 ^ c.frac + 1 : ℕ) : ℤ) ≤ maxRaw c := by cases c <;> decide
  rw [Int.abs_eq_natAbs, fmul]
  exact (Nat.cast_le.mpr (natAbs_asr_le hprod c.frac)).trans hroom

variable {c a}

theorem lnValue_eq_lnOf (hpos : 0 < signed c a) : lnValue c (signed c a) = lnOf c a := by
  have hnat : (signed c a).toNat = (signed c a).natAbs := by omega
  rw [lnValue, hnat, oneRaw_eq_cast, Int.toNat_natCast, lnOf]

/-- What the three commands share: error 5 up to 0 (R205 to R207), a value of the kernel's logarithm above. -/
theorem respond_log {i : Instr} {f : ℤ → ℤ} (hi : respond c i =
      if signed c a ≤ 0 then Response.raise .logDomain else Response.one c (f (lnValue c (signed c a)))) :
    respond c i = if signed c a ≤ 0 then Response.raise .logDomain else Response.one c (f (lnOf c a)) := by
  rw [hi]
  split_ifs with hneg
  · rfl
  · rw [lnValue_eq_lnOf (not_le.mp hneg)]

theorem respond_ln :
    respond c (.ln a) = if signed c a ≤ 0 then Response.raise .logDomain else Response.one c (lnOf c a) :=
  respond_log (f := id) rfl

theorem respond_log2 :
    respond c (.log2 a) =
      if signed c a ≤ 0 then Response.raise .logDomain else Response.one c (fmul c (lnOf c a) (invLn2 c)) :=
  respond_log (f := (fmul c · (invLn2 c))) rfl

theorem respond_log10 :
    respond c (.log10 a) =
      if signed c a ≤ 0 then Response.raise .logDomain else Response.one c (fmul c (lnOf c a) (invLn10 c)) :=
  respond_log (f := (fmul c · (invLn10 c))) rfl

theorem answers_of_respond_log {i : Instr} {s : State} {v w : ℤ}
    (hresp : respond s.cfg i = if v ≤ 0 then Response.raise .logDomain else Response.one s.cfg w)
    (hw : |w| ≤ maxRaw s.cfg) : (v ≤ 0 → AnswersError i s .logDomain) ∧ (v > 0 → AnswersOne i s w) := by
  refine ⟨fun hneg => answersError_of_respond ?_, fun hpos => answersOne_of_respond ?_ (mem_of_abs_le_maxRaw hw)⟩
  · rw [hresp, if_pos hneg]
  · rw [hresp, if_neg hpos.not_ge]

/-- LOG2 is MUL of the LN result and `INV_LN2`, bit for bit: neither the result nor its operands saturate (R208). -/
theorem respond_log2_eq_mul (hpos : 0 < signed c a) :
    respond c (.log2 a) = respond c (.mul (respond c (.ln a)).r0 (word c (invLn2 c))) := by
  have hln : respond c (.ln a) = Response.one c (lnOf c a) := by rw [respond_ln, if_neg hpos.not_ge]
  have hconst : signed c (word c (invLn2 c)) = invLn2 c := by cases c <;> decide
  obtain ⟨hlo, hhi⟩ := mem_of_abs_le_maxRaw (abs_fmul_lnOf_le c a le_rfl)
  rw [respond_log2, if_neg hpos.not_ge, respond_mul, signed_r0_of_one hln (mem_of_abs_le_maxRaw (abs_lnOf_le c a)), hconst,
    clamp_of_mem hlo hhi]

end Logarithms

end Sys2Proof.Machine
end

section
/-! SUPPORT. The statements about the exponential and logarithmic commands (44_exponential_log.md). -/

namespace Sys2Proof.Machine

/-- Settles O35: the exponential of the reduced argument is a raw value before the shift. -/
theorem exponential : Obligations.Exponential := by
  refine ⟨readsA_of_encode (fun _ => rfl) (fun _ => .inl rfl), ?_⟩
  rintro s a v k r ch sh rfl hred hparts
  rw [← saturatedExp_eq hparts]
  refine answersOne_of_respond ?_ (saturatedExp_mem ..)
  rw [respond_exp, hred]

/-- Settles O36. -/
theorem powerOfTwo : Obligations.PowerOfTwo := by
  refine ⟨readsA_of_encode (fun _ => rfl) (fun _ => .inl rfl), ?_⟩
  rintro s a v k f ch sh rfl rfl rfl hparts
  rw [← saturatedExp_eq hparts]
  refine answersOne_of_respond ?_ (saturatedExp_mem ..)
  rw [respond_pow2, asr_add_half_eq_floor, fmul_eq_floor]

/-- Settles O37: both mantissas lie in `[2^PNORM, 2^(PNORM+1))`. -/
theorem logarithmKernel : Obligations.LogarithmKernel := by
  intro c u v hu hv
  have hparts := lnParts_eq c hu hv
  exact ⟨norm1 c u, norm1 c v, _, _, rfl, norm1_mem c hu, norm1_mem c hv, norm1_of_log_le c hu, norm1_of_lt_log c hu,
    norm1_of_log_le c hv, norm1_of_lt_log c hv, three_mul_abs_norm1_sub_lt c hu hv, rfl, hparts, lnRatio_eq c hparts,
    halfLnRatio_eq c hparts⟩

/-- Settles O38. -/
theorem naturalLogarithm : Obligations.NaturalLogarithm := by
  refine ⟨readsA_of_encode (fun _ => rfl) (fun _ => .inl rfl), ?_⟩
  rintro s a v rfl
  exact answers_of_respond_log respond_ln (abs_lnOf_le s.cfg a)

/-- Settles O39: the bound of LN leaves room for the factor `INV_LN2`, so that MUL does not saturate either. -/
theorem logarithmToBaseTwo : Obligations.LogarithmToBaseTwo := by
  refine ⟨readsA_of_encode (fun _ => rfl) (fun _ => .inl rfl), ?_⟩
  rintro s a v l rfl rfl
  rw [← fmul_eq_floor]
  obtain ⟨herr, hval⟩ := answers_of_respond_log respond_log2 (abs_fmul_lnOf_le s.cfg a le_rfl)
  exact ⟨herr, fun hpos => ⟨hval hpos, respond_log2_eq_mul hpos⟩⟩

/-- Settles O40. -/
theorem logarithmToBaseTen : Obligations.LogarithmToBaseTen := by
  refine ⟨readsA_of_encode (fun _ => rfl) (fun _ => .inl rfl), ?_⟩
  rintro s a v l rfl rfl
  rw [← fmul_eq_floor]
  have hle : (invLn10 s.cfg).natAbs ≤ (invLn2 s.cfg).natAbs := by cases s.cfg <;> decide
  exact answers_of_respond_log respond_log10 (abs_fmul_lnOf_le s.cfg a hle)

end Sys2Proof.Machine
end

section
/-! SUPPORT. Facts of SQRT (45_algebraic_refinement.md rule R222): its radicand is within the range of the Newton steps, and its root
within that of the type. -/

namespace Sys2Proof.Machine

section SquareRoot
variable (c : Config) (a : Word)

/-- The radicand is below the square of `2^(W-1)`: neither the operand nor `ONE` exceeds it, and the operand does not reach it. -/
theorem sqrtRadicand_lt_sq : (signed c a).toNat * 2 ^ c.frac < (2 ^ (c.width - 1)) ^ 2 := by
  have hoperand : (signed c a).toNat < 2 ^ (c.width - 1) := by
    have hmax := (signed_spec c a).2
    rw [maxRaw] at hmax
    rw [Int.toNat_lt' (by positivity)]
    push_cast
    omega
  calc (signed c a).toNat * 2 ^ c.frac < 2 ^ (c.width - 1) * 2 ^ c.frac := by gcongr
    _ ≤ 2 ^ (c.width - 1) * 2 ^ (c.width - 1) := Nat.mul_le_mul_left _ (two_pow_frac_le c)
    _ = (2 ^ (c.width - 1)) ^ 2 := (sq _).symm

/-- The radicand of SQRT has fewer than `2W` bits (R221). -/
theorem sqrtRadicand_lt : (signed c a).toNat * 2 ^ c.frac < 2 ^ (2 * c.width - 1) :=
  calc (signed c a).toNat * 2 ^ c.frac < (2 ^ (c.width - 1)) ^ 2 := sqrtRadicand_lt_sq c a
    _ = 2 ^ ((c.width - 1) * 2) := (pow_mul ..).symm
    _ ≤ 2 ^ (2 * c.width - 1) := Nat.pow_le_pow_right two_pos (by omega)

/-- The root of the radicand is a raw value. -/
theorem sqrtRadicand_sqrt_mem :
    minRaw c ≤ (Nat.sqrt ((signed c a).toNat * 2 ^ c.frac) : ℕ) ∧
      (Nat.sqrt ((signed c a).toNat * 2 ^ c.frac) : ℕ) ≤ maxRaw c := by
  have hroot := Nat.sqrt_lt'.mpr (sqrtRadicand_lt_sq c a)
  apply mem_of_abs_le_maxRaw
  rw [Nat.abs_cast, maxRaw]
  zify at hroot
  omega

theorem respond_sqrt :
    respond c (.sqrt a) =
      if signed c a < 0 then Response.raise .sqrtDomain
      else Response.one c (Nat.sqrt ((signed c a).toNat * 2 ^ c.frac) : ℕ) := by
  have hdef : respond c (.sqrt a) =
      if signed c a < 0 then Response.raise .sqrtDomain
      else Response.one c (isqrtNr c (shl (signed c a) c.frac).toNat) := rfl
  rw [hdef]
  split_ifs with hneg
  · rfl
  · have hrad : (shl (signed c a) c.frac).toNat = (signed c a).toNat * 2 ^ c.frac := by
      rw [shl, Int.toNat_mul (not_lt.mp hneg) (by positivity), Int.toNat_pow_of_nonneg zero_le_two]
      rfl
    rw [hrad, isqrtNr_eq_sqrt (sqrtRadicand_lt c a)]

end SquareRoot

end Sys2Proof.Machine
end

section
/-! SUPPORT. The statements about the refinement stage and SQRT (45_algebraic_refinement.md). -/

namespace Sys2Proof.Machine

/-- Settles O41: convergence is quadratic, so that `KSQRT` steps bring the excess below the distance to the next integer. -/
theorem newtonReachesExactRoot : Obligations.NewtonReachesExactRoot :=
  fun _ _ => isqrtNr_eq_sqrt

/-- Settles O42: the floored product is `fmul`, and the Horner forms are the definitions. -/
theorem polynomialsByHorner : Obligations.PolynomialsByHorner := by
  intro c d m hm
  obtain rfl : m = fmul c := funext₂ fun x y => (hm x y).trans (fmul_eq_floor c x y).symm
  exact ⟨rfl, rfl, rfl, rfl⟩

/-- Settles O43. -/
theorem squareRootExactFloor : Obligations.SquareRootExactFloor := by
  refine ⟨readsA_of_encode (fun _ => rfl) (fun _ => .inl rfl), ?_⟩
  rintro s a v rfl
  refine ⟨fun hneg => answersError_of_respond ?_, fun hnonneg => answersOne_of_respond ?_ (sqrtRadicand_sqrt_mem s.cfg a)⟩
  · rw [respond_sqrt, if_pos hneg]
  · rw [respond_sqrt, if_neg hnonneg.not_gt]

end Sys2Proof.Machine
end

section
/-! SUPPORT. Facts of the errors (60_exceptions.md rules R242 to R245): the error code of a guarded response, and the operand bound of
the raw engine commands as the condition under which they fail. -/

namespace Sys2Proof.Machine

/-! ## Error responses (R242) -/

/-- A command that raises `e` under `p` and succeeds otherwise has the code `e` under `p` and 0 otherwise. -/
theorem err_of_guarded {r ok : Response} {p : Prop} [Decidable p] {e : Err} (hresp : r = if p then Response.raise e else ok)
    (hok : ok.err = .none) : r.err = if p then e else .none := by
  rw [hresp, apply_ite Response.err, hok]
  rfl

/-- A good response that is an error has zero results. -/
theorem Response.eq_of_good_of_err {c : Config} {r : Response} (hgood : r.good c = true) (herr : r.err ≠ .none) :
    r = { err := r.err, r0 := 0, r1 := 0, r2 := 0 } := by
  obtain ⟨err, r0, r1, r2⟩ := r
  obtain ⟨rfl, rfl, rfl⟩ : r0 = 0 ∧ r1 = 0 ∧ r2 = 0 := by
    rw [Response.good, Bool.and_eq_true] at hgood
    simpa [herr] using hgood.2
  rfl

/-! ## The operand bound of the raw engine commands (R112) -/

theorem outsideEngine_eq_true (c : Config) (x y z : ℤ) :
    outsideEngine c x y z = true ↔ 2 ^ (c.width - 4) < |x| ∨ 2 ^ (c.width - 4) < |y| ∨ 2 ^ (c.width - 2) < |z| := by
  rw [← Bool.not_eq_false, outsideEngine_eq_false, InEngineBound, not_and_or, not_and_or, not_le, not_le, not_le]

/-- A command that tests the operand bound and then runs the engine fails exactly outside the bound, with error 9. -/
theorem err_of_engine_run {c : Config} {i : Instr} {x y z : ℤ} {v : Xyz}
    (hresp : respond c i = if outsideEngine c x y z then Response.raise .engineRange else Response.three c v) :
    (respond c i).err =
      if 2 ^ (c.width - 4) < |x| ∨ 2 ^ (c.width - 4) < |y| ∨ 2 ^ (c.width - 2) < |z| then .engineRange else .none := by
  simp only [err_of_guarded hresp rfl, outsideEngine_eq_true]

end Sys2Proof.Machine
end

section
/-! SUPPORT. The statement about the errors of the commands (60_exceptions.md). -/

namespace Sys2Proof.Machine

/-- Settles O51: a fallible command answers an error under the condition that its response tests, a total command answers values
whatever its operands (R245); every response is good, so an error has zero results. -/
theorem errorsExactlyOutsideDomains : Obligations.ErrorsExactlyOutsideDomains := by
  refine ⟨fun c i => ⟨?_, Response.eq_of_good_of_err (respond_good c i)⟩, rfl, fun e => by cases e <;> decide⟩
  cases i with
  | asin => exact err_of_guarded (respond_asin ..) rfl
  | acos => exact err_of_guarded (respond_acos ..) rfl
  | acosh => exact err_of_guarded (respond_acosh ..) rfl
  | atanh => exact err_of_guarded (respond_atanh ..) rfl
  | acoth => exact err_of_guarded (respond_acoth ..) rfl
  | ln => exact err_of_guarded respond_ln rfl
  | log2 => exact err_of_guarded respond_log2 rfl
  | log10 => exact err_of_guarded respond_log10 rfl
  | sqrt => exact err_of_guarded (respond_sqrt ..) rfl
  | coth => exact err_of_guarded (respond_coth ..) rfl
  | div => exact err_of_guarded (respond_div ..) rfl
  | crot | cvec | hrot | hvec => exact err_of_engine_run rfl
  | add | sub | mul | shl | shr | atan2 | sin | cos | tan | sincos | atan | sinh | cosh | tanh | sinhcosh | asinh | exp | pow2 =>
    rfl

end Sys2Proof.Machine
end

section
/-! SUPPORT. A step under reset (70_reset_and_hazards.md rules R270, R271), and the statement about it. -/

namespace Sys2Proof.Machine

section Reset
variable {s : State}

theorem step_of_reset (hr : s.pins.rst = true) : step s = .next (s.tick.noteOffer s.pins).resetEngine := by
  simpa [hr] using step_cases s

theorem outputs_of_reset (hr : s.pins.rst = true) :
    outputs s = { cmdReady := false, rspValid := false, rsp := none } := by
  simp [outputs, hr]

end Reset

/-- Settles O55: reset masks the ports whatever the phase, and its one step writes neither `received` nor `cfg`. -/
theorem resetAbandonsTheCommand : Obligations.ResetAbandonsTheCommand := by
  intro s hr
  exact ⟨outputs_of_reset hr, _, step_of_reset hr, by simp⟩

end Sys2Proof.Machine
end
